-- ==== Sys2Proof/Word.lean ====
section
/-!
DEFINITION. The word types of the SLG-7420's frames, records and counters: a byte of a frame, the 16-bit sets and
details, and the 32-bit part time. Their wrap is that of BitVec.
-/

namespace Sys2Proof

/-- One byte of a frame, a response or a record (spec/09, section 9.12). -/
abbrev Byte := BitVec 8

/-- A 16-bit quantity: an event detail, a call's expiry in seconds, the 16 channels of a node. -/
abbrev Word16 := BitVec 16

/-- A 32-bit quantity: the part time, tags, motion time and stage time, acceptance order numbers (R197, R21, R122). -/
abbrev Word32 := BitVec 32

/-- A set of zones, Zn in bit n-1 (spec/09, section 9.12). -/
abbrev ZoneSet := BitVec 16

/-- A path mask, PUn in bit n (spec/09, section 9.12). -/
abbrev PathMask := BitVec 4

/-- A class mask, class c in bit c (spec/09, section 9.12). -/
abbrev ClassMask := BitVec 8

end Sys2Proof
end

