-- ==== Sys2Proof/Config.lean ====
section
/-!
DEFINITION. What one installation fixes: the names of ports, elements, units, nodes and zones, and the configuration
image of spec/11 (R192) with the fields of its eight kinds of entry (R2, R3, R50, R78, R97, R144, R182). The image is
data of State, since CFG-WRITE changes it. The model has no free value: nothing the manual leaves open is a value that
an instruction writes (INVENTORY.md, "What the manual leaves open").
-/

namespace Sys2Proof

/-- Station ports P0 to P3. -/
abbrev Port := Fin 4

/-- Deck elements E0 to E31. -/
abbrev ElemId := Fin 32

/-- Hydraulic power units PU0 to PU3. -/
abbrev UnitId := Fin 4

/-- Field nodes N0 to N7. -/
abbrev NodeId := Fin 8

/-- Fire zones: the index i stands for Z(i+1), as bit i of a zone set does. -/
abbrev ZoneId := Fin 16

/-- A field channel Nn.cc (spec/00, Names). -/
structure Chan where
  node : NodeId
  line : Fin 16
  deriving DecidableEq, Repr

/-- Kinds of element (R2). -/
inductive ElementKind where
  | visor | ramp | hoist | door
  deriving DecidableEq, Repr

/-- Positions (R5). -/
inductive Position where
  | unknown | closed | opened | between | conflict
  deriving DecidableEq, Repr

/-- Kinds of zone (R97). -/
inductive ZoneKind where
  | vehicle | passenger
  deriving DecidableEq, Repr

/-- The operation kind of an interlock entry (R50). -/
inductive InterlockKind where
  | onOpen | onClose | onAny
  deriving DecidableEq, Repr

/-- The lock state an interlock entry requires (R50). -/
inductive LockNeed where
  | any | locked | unlocked
  deriving DecidableEq, Repr

/-- One target reference as it is written: a kind byte and a zone or deck byte (spec/09, CALL payload). -/
structure RawRef where
  kind : Byte
  arg  : Byte
  deriving DecidableEq, Repr

/-- Section 1, PART: tPID, tCNF and tEGR in seconds (R192). -/
structure PartCfg where
  tPid : Nat
  tCnf : Nat
  tEgr : Nat
  deriving DecidableEq, Repr

/-- Section 2, STATIONS: home deck 1 to 6, default class mask (R192). -/
structure StationCfg where
  homeDeck : Nat
  mask     : ClassMask
  deriving DecidableEq, Repr

/-- Section 3, POWER UNITS: the three bindings of R78. -/
structure UnitCfg where
  startOut : Option Chan
  running  : Option Chan
  fault    : Option Chan
  deriving DecidableEq, Repr

/-- Section 4, NODES: the configured address 1 to 8 (R182). -/
structure NodeCfg where
  address : Nat
  deriving DecidableEq, Repr

/-- Section 5, ZONES: the fields of R97; four references are written, of which the first `nRefs` are read. -/
structure ZoneCfg where
  deck     : Nat
  kind     : ZoneKind
  cue      : Byte
  nRefs    : Nat
  refs     : List RawRef
  repeats  : Nat
  interval : Nat
  cls      : Nat
  deriving DecidableEq, Repr

/-- Section 6, ELEMENTS: the fields of R2 and the bindings of R3. Times are in seconds; an absent field is 0 or unbound. -/
structure ElementCfg where
  kind        : ElementKind
  homeZone    : ZoneId
  boundary    : ZoneSet
  tLck        : Nat
  tTrv        : Nat
  tWrn        : Nat
  consent     : Bool
  multipath   : Bool
  enabled     : Bool
  weight      : Nat
  installed   : PathMask
  mask        : PathMask
  cls         : Nat
  closedLimit : Option Chan
  openLimit   : Option Chan
  locked      : Option Chan
  unlocked    : Option Chan
  obstruction : Option Chan
  driveOpen   : Option Chan
  driveClose  : Option Chan
  lock        : Option Chan
  unlock      : Option Chan
  warning     : Option Chan
  deriving DecidableEq, Repr

/-- Section 7, INTERLOCKS: the fields of R50. -/
structure InterlockCfg where
  dependent    : ElemId
  opKind       : InterlockKind
  prerequisite : ElemId
  needOpen     : Bool
  needLock     : LockNeed
  deriving DecidableEq, Repr

/-- Section 8, BINDINGS: the fields of R144; expiry 0 is none. -/
structure BindingCfg where
  element  : ElemId
  entry    : Position
  cue      : Byte
  nRefs    : Nat
  refs     : List RawRef
  level    : Nat
  repeats  : Nat
  interval : Nat
  expiry   : Nat
  cancel   : Bool
  deriving DecidableEq, Repr

/-- The configuration image, and with the same fields the tables loaded from it at a reset (R192, R195). -/
structure Image where
  part       : PartCfg
  stations   : Vector StationCfg 4
  units      : Vector UnitCfg 4
  nodes      : Vector (Option NodeCfg) 8
  zones      : Vector (Option ZoneCfg) 16
  elements   : Vector (Option ElementCfg) 32
  interlocks : Vector (Option InterlockCfg) 32
  bindings   : Vector (Option BindingCfg) 16
  deriving DecidableEq, Repr

/-- The image that has never been committed (R192). It also gives the tables of a start-up that loads nothing: no
element, zone, interlock or binding, no unit installed, no node, every class mask with all eight classes (R195 note 2). -/
def Image.blank : Image where
  part := { tPid := 60, tCnf := 120, tEgr := 30 }
  stations := Vector.replicate 4 { homeDeck := 1, mask := 0xFF }
  units := Vector.replicate 4 { startOut := none, running := none, fault := none }
  nodes := Vector.replicate 8 none
  zones := Vector.replicate 16 none
  elements := Vector.replicate 32 none
  interlocks := Vector.replicate 32 none
  bindings := Vector.replicate 16 none

end Sys2Proof
end

