-- ==== Sys2Proof/Syntax.lean ====
section
/-!
DEFINITION. The commands of the SLG-7420: one constructor of Instr for each row of spec/opcode_table.json. A request row
carries its port, its SEQ byte and the fields of its payload at their written width (spec/09, section 9.12). An expiry
row names the record whose timer expires.
-/

namespace Sys2Proof

/-- A character as a line receiver sees it: a byte, or a character with a framing error (R169, R184). -/
inductive LineChar where
  | byte (b : Byte)
  | framingError
  deriving DecidableEq, Repr

/-- The levels of the nine strap pins (R191): MODE high is SERVICE; bit n of `roleA` and `roleB` is PnROLE_A and
PnROLE_B, 1 for high. -/
structure Straps where
  modeHigh : Bool
  roleA    : BitVec 4
  roleB    : BitVec 4
  deriving DecidableEq, Repr

/-- Which of the ETU and the DPM takes one field notification first: the manual allows either (R187, R189; log 6). -/
inductive BlockOrder where
  | etuFirst | dpmFirst
  deriving DecidableEq, Repr

/-- START's payload, LEN 8 (spec/09, section 9.12). -/
structure StartFields where
  elem  : Byte
  kind  : Byte
  tag   : Word32
  cls   : Byte
  flags : Byte
  deriving DecidableEq, Repr

/-- MODIFY's payload, LEN 5 (spec/09, section 9.12). -/
structure ModifyFields where
  elem      : Byte
  enabled   : Byte
  mask      : Byte
  cls       : Byte
  multipath : Byte
  deriving DecidableEq, Repr

/-- CALL's payload, LEN 10 + 2n, with its n references (spec/09, section 9.12). -/
structure CallFields where
  cue          : Byte
  level        : Byte
  repeats      : Byte
  interval     : Byte
  expiry       : Word16
  cancelKind   : Byte
  cancelObject : Byte
  cancelPos    : Byte
  refs         : List RawRef
  deriving DecidableEq, Repr

/-- CFG-WRITE's payload: section, entry, the configured bit, and the fields' bytes (spec/09, section 9.12). -/
structure WriteFields where
  sect   : Byte
  entry  : Byte
  flags  : Byte
  fields : List Byte
  deriving DecidableEq, Repr

/-- The commands, one constructor per row of spec/opcode_table.json. -/
inductive Instr where
  /-- RESET: the RESET pin, with the strap levels read (R195). -/
  | reset (straps : Straps)
  /-- TIME_BASE_TICK (R197). -/
  | timeBaseTick
  /-- STATION_FRAME_RECEIVED: a frame closes on port p; the characters between its flags (R169). -/
  | stationFrameReceived (p : Port) (chars : List LineChar)
  /-- PAUSE: the link character, received (R172). -/
  | pauseReceived (p : Port)
  /-- CONTINUE: the link character, received (R172). -/
  | continueReceived (p : Port)
  /-- TX_FRAME_START (R167, R172). -/
  | txFrameStart (p : Port)
  /-- LINK_CHARACTER_SEND (R171). -/
  | linkCharacterSend (p : Port)
  /-- TX_FRAME_SENT (R172); the strap levels are read only where a SOFT-RESET takes effect (R180, R196; log 4). -/
  | txFrameSent (p : Port) (straps : Straps)
  /-- SILENCE_TIMEOUT (R177); the strap levels as in TX_FRAME_SENT. -/
  | silenceTimeout (p : Port) (straps : Straps)
  /-- POLL (R179). -/
  | poll (p : Port) (seq : Byte)
  /-- PART-VIEW (R179). -/
  | partView (p : Port) (seq : Byte)
  /-- SOFT-RESET (R196). -/
  | softReset (p : Port) (seq : Byte)
  /-- VIEW (R15). -/
  | view (p : Port) (seq : Byte) (elem : Byte)
  /-- MODIFY (R13). -/
  | modify (p : Port) (seq : Byte) (f : ModifyFields)
  /-- START (R23). -/
  | start (p : Port) (seq : Byte) (f : StartFields)
  /-- HALT (R47). -/
  | halt (p : Port) (seq : Byte) (elem : Byte)
  /-- RESUME (R45). -/
  | resume (p : Port) (seq : Byte) (elem : Byte)
  /-- CLEAR (R48). -/
  | clear (p : Port) (seq : Byte) (elem : Byte)
  /-- CONSENT, with the listed element numbers (R40). -/
  | consent (p : Port) (seq : Byte) (elems : List Byte)
  /-- STOP-ALL (R49). -/
  | stopAll (p : Port) (seq : Byte)
  /-- CLAIM (R67). -/
  | claim (p : Port) (seq : Byte) (elem : Byte)
  /-- RELEASE (R68). -/
  | release (p : Port) (seq : Byte) (elem : Byte)
  /-- GRANT, with the target port (R69). -/
  | grant (p : Port) (seq : Byte) (elem target : Byte)
  /-- REVOKE (R70). -/
  | revoke (p : Port) (seq : Byte) (elem : Byte)
  /-- PU-CLEAR (R93). -/
  | puClear (p : Port) (seq : Byte) (unit : Byte)
  /-- PU-VIEW, with the start position in the slot-wait queue (R94). -/
  | puView (p : Port) (seq : Byte) (pos : Byte)
  /-- ZONE-ALARM (R99). -/
  | zoneAlarm (p : Port) (seq : Byte) (zone : Byte)
  /-- ZONE-CONFIRM (R100). -/
  | zoneConfirm (p : Port) (seq : Byte) (zone : Byte)
  /-- ZONE-RESET (R102). -/
  | zoneReset (p : Port) (seq : Byte) (zone : Byte)
  /-- ZONE-VIEW (R103). -/
  | zoneView (p : Port) (seq : Byte) (zone : Byte)
  /-- CONFIRM_TIMER_EXPIRY of a zone (R101). -/
  | confirmTimerExpiry (z : ZoneId)
  /-- CALL (R124). -/
  | call (p : Port) (seq : Byte) (f : CallFields)
  /-- WITHDRAW of a call id (R142). -/
  | withdraw (p : Port) (seq : Byte) (id : Byte)
  /-- CALL-LIST, with the start position (R143). -/
  | callList (p : Port) (seq : Byte) (pos : Byte)
  /-- BUSY_RISE (R131). -/
  | busyRise
  /-- BUSY_FALL (R131, R132). -/
  | busyFall
  /-- PA_FAULT_RISE (R133). -/
  | paFaultRise
  /-- PA_FAULT_FALL (R133). -/
  | paFaultFall
  /-- PA_ANSWER_TIMEOUT: tPAA (R133). -/
  | paAnswerTimeout
  /-- PA_PLAY_TIMEOUT: tPAM (R133). -/
  | paPlayTimeout
  /-- PA_STOP_TIMEOUT: tPAS (R133). -/
  | paStopTimeout
  /-- INTERVAL_EXPIRY of the entry with a call id (R138). -/
  | intervalExpiry (id : Byte)
  /-- CALL_EXPIRY of the entry with a call id (R139). -/
  | callExpiry (id : Byte)
  /-- COLLECT (R155, R156). -/
  | collect (p : Port) (seq : Byte) (elem : Byte)
  /-- COLLECT-NEXT (R157). -/
  | collectNext (p : Port) (seq : Byte)
  /-- SET-MASK (R159). -/
  | setMask (p : Port) (seq : Byte) (mask : Byte)
  /-- FETCH-EVENT (R165). -/
  | fetchEvent (p : Port) (seq : Byte)
  /-- CFG-WRITE (R193). -/
  | cfgWrite (p : Port) (seq : Byte) (f : WriteFields)
  /-- CFG-READ of a section's entry (R193). -/
  | cfgRead (p : Port) (seq : Byte) (sect entry : Byte)
  /-- CFG-COMMIT (R194). -/
  | cfgCommit (p : Port) (seq : Byte)
  /-- CFG_COMMIT_DONE: the validation ends (R194). -/
  | cfgCommitDone
  /-- FIELD_EXCHANGE_START (R183, R184). -/
  | fieldExchangeStart
  /-- FIELD_FRAME_RECEIVED: the characters between the flags of the first frame that closes (R184). -/
  | fieldFrameReceived (chars : List LineChar) (order : BlockOrder)
  /-- FIELD_ANSWER_TIMEOUT: tFAN (R184, R186). -/
  | fieldAnswerTimeout (order : BlockOrder)
  /-- STAGE_TIMER_EXPIRY of an element (R30). -/
  | stageTimerExpiry (e : ElemId)
  /-- STAGE_LIMIT_EXPIRY of an element (R31). -/
  | stageLimitExpiry (e : ElemId)
  /-- CONSENT_WINDOW_EXPIRY of an element (R39). -/
  | consentWindowExpiry (e : ElemId)
  /-- SUSPENSION_TIMEOUT of an element (R43). -/
  | suspensionTimeout (e : ElemId)
  /-- ORPHAN_TIMEOUT of a port (R75). -/
  | orphanTimeout (p : Port)
  /-- START_TIMER_EXPIRY of a unit (R82). -/
  | startTimerExpiry (u : UnitId)
  /-- IDLE_TIMER_EXPIRY of a unit (R83). -/
  | idleTimerExpiry (u : UnitId)
  deriving DecidableEq, Repr

end Sys2Proof
end

