-- ==== Sys2Proof/Decode.lean ====
section
/-!
DEFINITION. No row of spec/opcode_table.json gives bits: a command is an event of the part, not a word. So no word spells
one. The frames that carry requests are read in Sys2Proof/Machine/Codes.lean and Operands.lean.
-/

namespace Sys2Proof

/-- The command that a word spells by the table's bits: none. -/
def decodeTableWord (_nbits _w : Nat) : Option Instr := none

end Sys2Proof
end

