-- ==== Sys2Proof/Machine/State.lean ====
section
/-!
DEFINITION. The state of the SLG-7420 as plain data, block by block as in the manual's block diagram: the Station Link
Controller, the Element Table Unit, the Drive Power Manager, the Zone Unit, the Call Scheduler, the Report Unit, the
Field Link Controller and the Configuration Store, with the part time and the queue of commands. A timer is
`Option Nat`: none is stopped, `some n` has n ticks left, `some 0` is due (R197; log 3).
-/

namespace Sys2Proof.Machine

/-- Role of a port (R61). -/
inductive Role where
  | off | bridge | deck | safety
  deriving DecidableEq, Repr

/-- Start-up state (R195). -/
inductive StartUp where
  | run | service | unconfigured
  deriving DecidableEq, Repr

/-- Link state of a port (spec/09, section 9.6). -/
inductive LinkState where
  | off | down | up | lost
  deriving DecidableEq, Repr

/-- The two link characters (R168). -/
inductive LinkChar where
  | pause | cont
  deriving DecidableEq, Repr

/-- A request frame in a receive FIFO (R171). -/
structure Request where
  seq     : Byte
  code    : Byte
  payload : List Byte
  deriving DecidableEq, Repr

/-- A place of a transmit FIFO (R172): reserved for a response not yet placed, a response, an attention, or the OK of
a SOFT-RESET, which goes ahead of the queue and brings the reset when it has been sent (R180). -/
inductive TxPlace where
  | reserved (seq code : Byte)
  | response (seq code : Byte) (payload : List Byte)
  | attention (code : Byte) (payload : List Byte)
  | softResetOk (seq : Byte)
  deriving DecidableEq, Repr

/-- What the SLC holds for one port (spec/09). `sending` is the driver-enable output: the head of `tx` is on the line.
`txd` is what PnTXD last carried (log 16). -/
structure PortRec where
  role     : Role
  link     : LinkState
  rx       : List Request
  tx       : List TxPlace
  sending  : Bool
  paused   : Bool
  throttle : Bool
  owed     : Bool
  waiting  : Option LinkChar
  silence  : Option Nat
  txd      : List Byte
  deriving DecidableEq, Repr

/-- Lock states (R6). -/
inductive LockState where
  | unknown | locked | unlocked | midway | conflict | none
  deriving DecidableEq, Repr

/-- Activities (R20). -/
inductive Activity where
  | idle | startPending | active | suspended | ended
  deriving DecidableEq, Repr

/-- Operation kinds (R21). -/
inductive OpKind where
  | opening | closing | egress
  deriving DecidableEq, Repr

/-- Stages (R21). -/
inductive Stage where
  | none | prep | unlock | travelOpen | travelClose | lock | warn | reverse | retryPause | holdOpen
  deriving DecidableEq, Repr

/-- Completion codes (R46). -/
inductive Completion where
  | none | done | halted | timeout | obstructed | abandoned | pathFailed | positionLost | sensorConflict
  | wrongLimit | interlockLost | overtaken
  deriving DecidableEq, Repr

/-- The suspension reasons of an operation (R41). -/
structure Reasons where
  consent   : Bool
  interlock : Bool
  path      : Bool
  deriving DecidableEq, Repr

/-- The operation record (R21) with its consent window (R39) and suspension timer (R41). `requester` none is INTERNAL.
The stage timer is `stageTime` against the stage's limit or duration (R22). -/
structure OpRec where
  kind        : OpKind
  requester   : Option Port
  tag         : Word32
  cls         : Nat
  stageReport : Bool
  stage       : Stage
  reasons     : Reasons
  attempts    : Nat
  motion      : Word32
  stageTime   : Word32
  slot        : Option UnitId
  code        : Completion
  mark        : Bool
  window      : Option Nat
  suspTimer   : Option Nat
  deriving DecidableEq, Repr

/-- The hold of an element (R63). -/
inductive Hold where
  | none
  | held (p : Port)
  | orphaned (p : Port)
  deriving DecidableEq, Repr

/-- Pending kinds (R151). -/
structure Pending where
  ended : Bool
  stage : Bool
  alert : Bool
  deriving DecidableEq, Repr

/-- Alert reasons (R9). -/
inductive AlertReason where
  | none | moved | conflict | lost | regained
  deriving DecidableEq, Repr

/-- Requester of a last completion: none yet, INTERNAL, or a port (R18, R46). -/
inductive LastRequester where
  | none
  | internal
  | port (p : Port)
  deriving DecidableEq, Repr

/-- The last completion fields (R46). -/
structure LastCompletion where
  kind      : Option OpKind
  requester : LastRequester
  tag       : Word32
  cls       : Nat
  stage     : Stage
  code      : Completion
  motion    : Word32
  deriving DecidableEq, Repr

/-- The run part of an element record (R4). -/
structure ElemRun where
  enabled     : Bool
  mask        : PathMask
  cls         : Nat
  multipath   : Bool
  position    : Position
  lock        : LockState
  posSeen     : Bool
  lockSeen    : Bool
  activity    : Activity
  op          : Option OpRec
  hold        : Hold
  pend        : Pending
  alertReason : AlertReason
  overrun     : Bool
  last        : LastCompletion
  closureOwed : Bool
  deriving DecidableEq, Repr

/-- The ETU's authority record of a port: its link flag and orphan timer (R62). Role and home deck have their one home
in the port record and in the loaded configuration. -/
structure AuthRec where
  linkUp : Bool
  orphan : Option Nat
  deriving DecidableEq, Repr

/-- The Element Table Unit: element records, authority records, alarmed-zone set (R105) and report list (R152). -/
structure Etu where
  elems   : Vector ElemRun 32
  auth    : Vector AuthRec 4
  alarmed : ZoneSet
  reports : List ElemId
  deriving DecidableEq, Repr

/-- Power-unit states (R79). -/
inductive UnitState where
  | off | starting | ready | serving | fault
  deriving DecidableEq, Repr

/-- Power-unit fault reasons (R84). -/
inductive FaultReason where
  | none | startFailed | lostPressure | faultInput | link
  deriving DecidableEq, Repr

/-- A slot holder (R79). -/
structure Holder where
  elem      : ElemId
  weight    : Nat
  path      : PathMask
  multipath : Bool
  deriving DecidableEq, Repr

/-- Wait kinds (R89). -/
inductive WaitKind where
  | start | path
  deriving DecidableEq, Repr

/-- An entry of the slot-wait queue (R89). -/
structure Waiter where
  elem      : ElemId
  weight    : Nat
  path      : PathMask
  multipath : Bool
  kind      : WaitKind
  deriving DecidableEq, Repr

/-- The run part of a power-unit record (R79); slots used is the sum of the holders' weights. -/
structure UnitRun where
  state      : UnitState
  reason     : FaultReason
  holders    : List Holder
  startTimer : Option Nat
  idleTimer  : Option Nat
  deriving DecidableEq, Repr

/-- The Drive Power Manager (R78, R89). -/
structure Dpm where
  units : Vector UnitRun 4
  queue : List Waiter
  deriving DecidableEq, Repr

/-- Fire states (R98). -/
inductive FireState where
  | normal | alarm | confirmed
  deriving DecidableEq, Repr

/-- The run part of a zone record (R98). -/
structure ZoneRun where
  fire      : FireState
  alarmTime : Word32
  reporter  : Option Port
  confirm   : Option Nat
  deriving DecidableEq, Repr

/-- Cancel conditions (R120). -/
inductive CancelCond where
  | none
  | leaves (e : ElemId) (p : Position)
  | zoneNormal (z : ZoneId)
  deriving DecidableEq, Repr

/-- Call states (R120). -/
inductive CallState where
  | queued | interval | playing | stacked
  deriving DecidableEq, Repr

/-- A call entry (R120). `interval` is in seconds, `expiry` a part time, `originator` none is INTERNAL. -/
structure CallEntry where
  id         : Byte
  cue        : Byte
  zones      : ZoneSet
  level      : Nat
  repeats    : Nat
  interval   : Nat
  expiry     : Option Word32
  cancel     : CancelCond
  originator : Option Port
  order      : Word32
  state      : CallState
  timer      : Option Nat
  expired    : Bool
  deriving DecidableEq, Repr

/-- The play in progress (R121, R132): its cue, its effective set, its entry while that is live, the stop owed. -/
structure Play where
  cue      : Byte
  zones    : ZoneSet
  entry    : Option CallEntry
  stopOwed : Bool
  deriving DecidableEq, Repr

/-- PA port states (R130). -/
inductive PaState where
  | idle | starting | playing | stopping | fault
  deriving DecidableEq, Repr

/-- The PA port: its state, its one running timer, its output lines and the levels of its input lines (R130). -/
structure PaPort where
  state : PaState
  timer : Option Nat
  cue   : Byte
  zones : ZoneSet
  play  : Bool
  stop  : Bool
  busy  : Bool
  fault : Bool
  deriving DecidableEq, Repr

/-- The Call Scheduler (R121, R122, R128, R130). The head of `stack` is its top. -/
structure Csc where
  queue       : List CallEntry
  stack       : List CallEntry
  slot        : Option Play
  muted       : ZoneSet
  nextId      : Byte
  acceptCount : Word32
  pa          : PaPort
  deriving DecidableEq, Repr

/-- Event kinds, in the order of R163. -/
inductive EventKind where
  | powerUp | softReset | configBad | linkUp | linkLost | holdsDropped | puFault | nodeLost | nodeBack
  | zoneAlarm | zoneEscalated | zoneReset | doorUnavailable | closureFailed | callLost | paFault
  deriving DecidableEq, Repr

/-- An entry of the event queue (R162). -/
structure EventEntry where
  kind     : EventKind
  source   : Byte
  detail   : Word16
  time     : Word32
  overflow : Bool
  deriving DecidableEq, Repr

/-- The Report Unit: class masks (R159) and event queue, oldest first (R162). -/
structure Rpu where
  masks  : Vector ClassMask 4
  events : List EventEntry
  deriving DecidableEq, Repr

/-- Field node states (R182). -/
inductive NodeState where
  | unused | seeking | online | lost
  deriving DecidableEq, Repr

/-- The run part of a node record (R182). `inputs` none is every channel unknown: a node's channels become known and
unknown together (R185, R186; log 7). The answer timer runs exactly while the exchange is in progress. -/
structure NodeRun where
  state   : NodeState
  misses  : Nat
  inputs  : Option Word16
  outputs : Word16
  deriving DecidableEq, Repr

/-- The Field Link Controller: node records, the exchange in progress, the node last served (R183), `driving`, the field
driver-enable output FDE (R181; log 31), and the characters of the latest OUT frame on FTXD (log 16). -/
structure Flc where
  nodes    : Vector NodeRun 8
  exchange : Option NodeId
  served   : Option NodeId
  driving  : Bool
  ftxd     : List Byte
  deriving DecidableEq, Repr

/-- The Configuration Store (R191): image, checksum status, start-up state, the commit flag with the port whose commit
runs, and the configuration loaded at the last reset (R195). -/
structure Cfg where
  image      : Image
  valid      : Bool
  startUp    : StartUp
  committing : Option Port
  loaded     : Image
  deriving DecidableEq, Repr

/-- The state of the SLG-7420 and the queue of the commands that wait. -/
structure State where
  time    : Word32
  cfg     : Cfg
  ports   : Vector PortRec 4
  etu     : Etu
  dpm     : Dpm
  zones   : Vector ZoneRun 16
  csc     : Csc
  rpu     : Rpu
  flc     : Flc
  pending : List Instr
  deriving DecidableEq, Repr

/-- Why the machine stops: the manual names no condition that stops the part, so there is no fault (log 28; safe). -/
inductive Fault where
  deriving DecidableEq, Repr

/-- Why a command has no meaning. -/
inductive Refusal where
  /-- Raised by exec alone, for a row of the table that has no meaning yet; safe, since nothing is claimed of it. -/
  | notModelled (mnemonic : String)
  deriving DecidableEq, Repr

/-- The port record of R180 after a reset, for a strapped role. -/
def PortRec.atReset (r : Role) : PortRec where
  role := r
  link := if r = .off then .off else .down
  rx := []
  tx := []
  sending := false
  paused := false
  throttle := false
  owed := false
  waiting := none
  silence := none
  txd := []

/-- The empty last completion fields of R18. -/
def LastCompletion.empty : LastCompletion where
  kind := none
  requester := .none
  tag := 0
  cls := 0
  stage := .none
  code := .none
  motion := 0

/-- An empty place of the element table (R1): nothing reads it. -/
def ElemRun.empty : ElemRun where
  enabled := false
  mask := 0
  cls := 0
  multipath := false
  position := .unknown
  lock := .none
  posSeen := false
  lockSeen := true
  activity := .idle
  op := none
  hold := .none
  pend := { ended := false, stage := false, alert := false }
  alertReason := .none
  overrun := false
  last := LastCompletion.empty
  closureOwed := false

/-- The values of R79 after a reset. -/
def UnitRun.atReset : UnitRun where
  state := .off
  reason := .none
  holders := []
  startTimer := none
  idleTimer := none

/-- The values of R98 after a reset. -/
def ZoneRun.atReset : ZoneRun where
  fire := .normal
  alarmTime := 0
  reporter := none
  confirm := none

/-- The values of R182 after a reset, for a node that is configured or not. -/
def NodeRun.atReset (configured : Bool) : NodeRun where
  state := if configured then .seeking else .unused
  misses := 0
  inputs := none
  outputs := 0

/-- The machine right after a hardware reset of a part that has never been committed (R192): the image blank and its
checksum invalid, the straps those of the reference configuration's four ports with MODE high (log 5), so the start-up
state is SERVICE with nothing loaded (R195) and the event queue holds POWER_UP (R166). -/
def State.reset : State where
  time := 0
  cfg := { image := Image.blank, valid := false, startUp := .service, committing := none, loaded := Image.blank }
  ports := #v[PortRec.atReset .bridge, PortRec.atReset .deck, PortRec.atReset .deck, PortRec.atReset .safety]
  etu :=
    { elems := Vector.replicate 32 ElemRun.empty
      auth := Vector.replicate 4 { linkUp := false, orphan := none }
      alarmed := 0
      reports := [] }
  dpm := { units := Vector.replicate 4 UnitRun.atReset, queue := [] }
  zones := Vector.replicate 16 ZoneRun.atReset
  csc :=
    { queue := []
      stack := []
      slot := none
      muted := 0
      nextId := 1
      acceptCount := 0
      pa :=
        { state := .idle, timer := none, cue := 0, zones := 0, play := false, stop := false, busy := false,
          fault := false } }
  rpu :=
    { masks := Vector.replicate 4 0xFF
      events := [{ kind := .powerUp, source := 0, detail := 0, time := 0, overflow := false }] }
  flc :=
    { nodes := Vector.replicate 8 (NodeRun.atReset false), exchange := none, served := none, driving := false
      ftxd := [] }
  pending := []

end Sys2Proof.Machine
end

