-- ==== Sys2Proof/Machine/Codes.lean ====
section
/-!
DEFINITION. The value codes, byte layouts, CRC and framing of spec/09, section 9.12 and rules R168 to R170, and of
spec/10, R181, and the durations of the timing parameters in ticks (R197).
-/

namespace Sys2Proof.Machine

/-! ### Durations, in ticks of 10 ms (spec/00, timing parameters; R197) -/

/-- A number of seconds in ticks (R197). -/
def seconds (n : Nat) : Nat := 100 * n

/-- tREV, 2 s (R37). -/
def tRev : Nat := seconds 2
/-- tRTY, 3 s (R37). -/
def tRty : Nat := seconds 3
/-- tCW, 400 ms (R39). -/
def tCw : Nat := 40
/-- tSUS, 30 s (R41). -/
def tSus : Nat := seconds 30
/-- tORP, 30 s (R72). -/
def tOrp : Nat := seconds 30
/-- tPST, 8 s (R81). -/
def tPst : Nat := seconds 8
/-- tPAA, 500 ms (R131). -/
def tPaa : Nat := 50
/-- tPAS, 1 s (R132). -/
def tPas : Nat := seconds 1
/-- tPAM, 120 s (R131). -/
def tPam : Nat := seconds 120
/-- tSIL, 2 s (R176). -/
def tSil : Nat := seconds 2

/-! ### Capacities (spec/00, the part at a glance) -/

/-- Frames of a receive FIFO (R171). -/
def rxCapacity : Nat := 8
/-- Places of a transmit FIFO (R172). -/
def txCapacity : Nat := 16
/-- Entries of the event queue (R162). -/
def eventCapacity : Nat := 16
/-- Entries of the call queue (R121). -/
def callCapacity : Nat := 32
/-- Entries of the preemption stack (R121). -/
def stackCapacity : Nat := 4
/-- Total weight of the slots of one unit (R90). -/
def slotCapacity : Nat := 2

/-! ### Bytes -/

/-- A 16-bit field, high byte first (spec/09, section 9.12). -/
def bytes16 (w : Word16) : List Byte := [w.extractLsb' 8 8, w.extractLsb' 0 8]

/-- A 32-bit field, high byte first (spec/09, section 9.12). -/
def bytes32 (w : Word32) : List Byte :=
  [w.extractLsb' 24 8, w.extractLsb' 16 8, w.extractLsb' 8 8, w.extractLsb' 0 8]

/-- A count as a byte. -/
def byteOf (n : Nat) : Byte := BitVec.ofNat 8 n

/-- A count as a 16-bit field. -/
def wordOf (n : Nat) : Word16 := BitVec.ofNat 16 n

/-- A flag in bit `i` of a byte. -/
def flagBit (i : Nat) (b : Bool) : Byte := if b then 1 <<< i else 0

/-- A zone number, Z(i+1) for the index i. -/
def zoneByte (z : ZoneId) : Byte := byteOf (z.val + 1)

/-- A port, or the code for none or INTERNAL. -/
def portByte (absent : Byte) : Option Port → Byte
  | some p => byteOf p.val
  | none => absent

/-- A channel Nn.cc is 16n + cc, and 0xFF is unbound (spec/09, section 9.12). -/
def chanByte : Option Chan → Byte
  | some c => byteOf (16 * c.node.val + c.line.val)
  | none => 0xFF

/-! ### Value codes (spec/09, section 9.12) -/

def elementKindCode : ElementKind → Byte
  | .visor => 1 | .ramp => 2 | .hoist => 3 | .door => 4

def Activity.code : Activity → Byte
  | .idle => 0 | .startPending => 1 | .active => 2 | .suspended => 3 | .ended => 4

def positionCode : Position → Byte
  | .unknown => 0 | .closed => 1 | .opened => 2 | .between => 3 | .conflict => 4

def LockState.code : LockState → Byte
  | .unknown => 0 | .locked => 1 | .unlocked => 2 | .midway => 3 | .conflict => 4 | .none => 5

/-- The hold state and the holder port, 0xFF for none. -/
def Hold.codes : Hold → List Byte
  | .none => [0, 0xFF]
  | .held p => [1, byteOf p.val]
  | .orphaned p => [2, byteOf p.val]

def AlertReason.code : AlertReason → Byte
  | .none => 0 | .moved => 1 | .conflict => 2 | .lost => 3 | .regained => 4

/-- Operation kind, 0 for NONE. -/
def opKindCode : Option OpKind → Byte
  | none => 0 | some .opening => 1 | some .closing => 2 | some .egress => 3

def Stage.code : Stage → Byte
  | .none => 0 | .prep => 1 | .unlock => 2 | .travelOpen => 3 | .travelClose => 4 | .lock => 5 | .warn => 6
  | .reverse => 7 | .retryPause => 8 | .holdOpen => 9

def Completion.code : Completion → Byte
  | .none => 0 | .done => 1 | .halted => 2 | .timeout => 3 | .obstructed => 4 | .abandoned => 5 | .pathFailed => 6
  | .positionLost => 7 | .sensorConflict => 8 | .wrongLimit => 9 | .interlockLost => 10 | .overtaken => 11

def StartUp.code : StartUp → Byte
  | .run => 0 | .service => 1 | .unconfigured => 2

def LinkState.code : LinkState → Byte
  | .off => 0 | .down => 1 | .up => 2 | .lost => 3

def NodeState.code : NodeState → Byte
  | .unused => 0 | .seeking => 1 | .online => 2 | .lost => 3

def UnitState.code : UnitState → Byte
  | .off => 0 | .starting => 1 | .ready => 2 | .serving => 3 | .fault => 4

def FaultReason.code : FaultReason → Byte
  | .none => 0 | .startFailed => 1 | .lostPressure => 2 | .faultInput => 3 | .link => 4

def WaitKind.code : WaitKind → Byte
  | .start => 1 | .path => 2

def FireState.code : FireState → Byte
  | .normal => 0 | .alarm => 1 | .confirmed => 2

def zoneKindCode : ZoneKind → Byte
  | .vehicle => 1 | .passenger => 2

def CallState.code : CallState → Byte
  | .queued => 1 | .interval => 2 | .playing => 3 | .stacked => 4

def PaState.code : PaState → Byte
  | .idle => 0 | .starting => 1 | .playing => 2 | .stopping => 3 | .fault => 4

def interlockKindCode : InterlockKind → Byte
  | .onOpen => 1 | .onClose => 2 | .onAny => 3

def lockNeedCode : LockNeed → Byte
  | .any => 0 | .locked => 1 | .unlocked => 2

/-- 1 POWER_UP to 16 PA_FAULT (R163). -/
def EventKind.code : EventKind → Byte
  | .powerUp => 1 | .softReset => 2 | .configBad => 3 | .linkUp => 4 | .linkLost => 5 | .holdsDropped => 6
  | .puFault => 7 | .nodeLost => 8 | .nodeBack => 9 | .zoneAlarm => 10 | .zoneEscalated => 11 | .zoneReset => 12
  | .doorUnavailable => 13 | .closureFailed => 14 | .callLost => 15 | .paFault => 16

/-- Pending kinds: bit 0 ENDED, bit 1 STAGE, bit 2 ALERT. -/
def Pending.code (k : Pending) : Byte := flagBit 0 k.ended ||| flagBit 1 k.stage ||| flagBit 2 k.alert

/-- Suspension reasons: bit 0 CONSENT, bit 1 INTERLOCK, bit 2 PATH. -/
def Reasons.code (r : Reasons) : Byte := flagBit 0 r.consent ||| flagBit 1 r.interlock ||| flagBit 2 r.path

/-- Cancel kind and cancel object of a call entry, with its position byte, 0 where the kind has none (log 20). -/
def CancelCond.codes : CancelCond → List Byte
  | .none => [0, 0, 0]
  | .leaves e p => [1, byteOf e.val, positionCode p]
  | .zoneNormal z => [2, zoneByte z, 0]

/-- PA_FAULT details (spec/09, event details). -/
inductive PaCause where
  | answerLimit | playLimit | stopLimit | faultInput
  deriving DecidableEq, Repr

def PaCause.detail : PaCause → Word16
  | .answerLimit => 1 | .playLimit => 2 | .stopLimit => 3 | .faultInput => 4

/-- CALL_LOST reasons (R146). -/
inductive LostReason where
  | full | stack
  deriving DecidableEq, Repr

/-- CALL_LOST detail: high byte 1 FULL or 2 STACK, low byte the cue. -/
def LostReason.detail (r : LostReason) (cue : Byte) : Word16 :=
  (match r with | .full => (1 : Byte) | .stack => 2) ++ cue

/-- Outcomes (spec/09, section 9.11). -/
inductive Answer where
  | ok | accepted | pending | notPending | none | notOperational | role | mode | form | unknown | disabled | held
  | notHeld | busy | statusPending | notActive | notSuspended | position | zone | interlock | path | full | level
  | condition
  deriving DecidableEq, Repr

/-- Outcome codes (spec/09, section 9.11). -/
def Answer.code : Answer → Byte
  | .ok => 0x00 | .accepted => 0x01 | .pending => 0x02 | .notPending => 0x03 | .none => 0x04
  | .notOperational => 0x05 | .role => 0x10 | .mode => 0x11 | .form => 0x12 | .unknown => 0x13 | .disabled => 0x14
  | .held => 0x15 | .notHeld => 0x16 | .busy => 0x17 | .statusPending => 0x18 | .notActive => 0x19
  | .notSuspended => 0x1A | .position => 0x1B | .zone => 0x1C | .interlock => 0x1D | .path => 0x1E | .full => 0x1F
  | .level => 0x20 | .condition => 0x21

/-! ### CRC and framing -/

/-- One bit step of the CRC register, generator 0x1021 (R170). -/
def crcBit (r : Word16) : Word16 := if r.msb then (r <<< 1) ^^^ 0x1021 else r <<< 1

/-- One byte of the CRC, most significant bit first (R170). -/
def crcByte (r : Word16) (b : Byte) : Word16 :=
  (List.range 8).foldl (fun r _ => crcBit r) (r ^^^ (b ++ (0 : Byte)))

/-- The CRC of R170: the register starts at 0xFFFF and has no final XOR. -/
def crc (bs : List Byte) : Word16 := bs.foldl crcByte 0xFFFF

/-- Escaping on a station line (R168). -/
def escapeStation (bs : List Byte) : List Byte :=
  bs.flatMap fun b => if b = 0x7E ∨ b = 0x7D ∨ b = 0x7B ∨ b = 0x7C then [0x7D, b ^^^ 0x20] else [b]

/-- Escaping on the field line, which has no link characters (R181). -/
def escapeField (bs : List Byte) : List Byte :=
  bs.flatMap fun b => if b = 0x7E ∨ b = 0x7D then [0x7D, b ^^^ 0x20] else [b]

/-- The characters of a frame between its flags become its bytes (R169): a link character is not counted, the character
after an escape is XORed with 0x20; a framing error or a last escape (aborted by the closing FLAG) discards the frame. Of a
link character that comes directly after an escape two rows of R169's table speak: taking it out, with the escape still to
act on the character after it, is the model's choice (log 37). -/
def unescapeStation : List LineChar → Bool → Option (List Byte)
  | [], escaped => if escaped then none else some []
  | .framingError :: _, _ => none
  | .byte b :: cs, escaped =>
    if b = 0x7E then none
    else if b = 0x7B ∨ b = 0x7C then unescapeStation cs escaped
    else if escaped then (unescapeStation cs false).map ((b ^^^ 0x20) :: ·)
    else if b = 0x7D then unescapeStation cs true
    else (unescapeStation cs false).map (b :: ·)

/-- The same on the field line (R181, R184). -/
def unescapeField : List LineChar → Bool → Option (List Byte)
  | [], escaped => if escaped then none else some []
  | .framingError :: _, _ => none
  | .byte b :: cs, escaped =>
    if b = 0x7E then none
    else if escaped then (unescapeField cs false).map ((b ^^^ 0x20) :: ·)
    else if b = 0x7D then unescapeField cs true
    else (unescapeField cs false).map (b :: ·)

/-- The bytes of a frame before escaping, CRC included (spec/09, section 9.12; R170). -/
def frameBytes (port kind seq code : Byte) (payload : List Byte) : List Byte :=
  let body := port :: kind :: seq :: code :: byteOf payload.length :: payload
  body ++ bytes16 (crc body)

/-- The characters of a station frame on the line (R168). -/
def stationChars (port kind seq code : Byte) (payload : List Byte) : List Byte :=
  0x7E :: escapeStation (frameBytes port kind seq code payload) ++ [0x7E]

/-- The bytes of a field frame before escaping (R181). -/
def fieldBytes (address kind : Byte) (data : Word16) : List Byte :=
  let body := address :: kind :: bytes16 data
  body ++ bytes16 (crc body)

/-- The characters of a field frame on the line (R181). -/
def fieldChars (address kind : Byte) (data : Word16) : List Byte :=
  0x7E :: escapeField (fieldBytes address kind data) ++ [0x7E]

/-- The checks of R169 on a closed frame of port p: size, CRC, length, port, kind. -/
def checkStation (p : Port) (bs : List Byte) : Option Request :=
  if bs.length < 7 ∨ 63 < bs.length then none
  else
    let body := bs.take (bs.length - 2)
    if bs.drop (bs.length - 2) ≠ bytes16 (crc body) then none
    else
      match body with
      | port :: kind :: seq :: code :: len :: payload =>
        if 56 < len.toNat ∨ len.toNat ≠ payload.length ∨ port ≠ byteOf p.val ∨ kind ≠ 0x01 then none
        else some { seq := seq, code := code, payload := payload }
      | _ => none

/-- A request frame as it closes on port p, or none where it is discarded (R169). -/
def receiveStation (p : Port) (chars : List LineChar) : Option Request :=
  (unescapeStation chars false).bind (checkStation p)

/-- The checks of R184 on a closed field frame of the node with this address: its 16 data bits, or none for a miss. -/
def receiveField (address : Byte) (chars : List LineChar) : Option Word16 :=
  match unescapeField chars false with
  | some [addr, kind, hi, lo, c1, c0] =>
    if [c1, c0] = bytes16 (crc [addr, kind, hi, lo]) ∧ addr = address ∧ kind = 0x02 then some (hi ++ lo) else none
  | _ => none

end Sys2Proof.Machine
end

