-- ==== Sys2Proof/Machine/Ops.lean ====
section
/-!
DEFINITION. The named operations every command is written in: reading and updating one record, the field images (R3,
R188), the transmit FIFO and attentions (R172, R175), the event queue (R164), the report-list notices (R152 to R154,
R160), and how a request is taken and answered (R173, R174).
-/

namespace Sys2Proof.Machine

/-! ### Records -/

/-- Change one place of a table. -/
def upd {α : Type} {n : Nat} (v : Vector α n) (i : Fin n) (f : α → α) : Vector α n := v.set i.val (f v[i]) i.isLt

/-- The index that a byte names, where it is in range. -/
def index? (n : Nat) (b : Byte) : Option (Fin n) := if h : b.toNat < n then some ⟨b.toNat, h⟩ else none

def State.port (s : State) (p : Port) : PortRec := s.ports[p]
def State.elem (s : State) (e : ElemId) : ElemRun := s.etu.elems[e]
def State.unit (s : State) (u : UnitId) : UnitRun := s.dpm.units[u]
def State.zone (s : State) (z : ZoneId) : ZoneRun := s.zones[z]
def State.node (s : State) (n : NodeId) : NodeRun := s.flc.nodes[n]
def State.auth (s : State) (p : Port) : AuthRec := s.etu.auth[p]
def State.role (s : State) (p : Port) : Role := (s.port p).role

/-- The configuration part of an element, none for an empty place (R1). -/
def State.elemCfg (s : State) (e : ElemId) : Option ElementCfg := s.cfg.loaded.elements[e]
/-- The configuration part of a zone, none for an empty place (R97). -/
def State.zoneCfg (s : State) (z : ZoneId) : Option ZoneCfg := s.cfg.loaded.zones[z]
/-- The bindings of a power unit (R78). -/
def State.unitCfg (s : State) (u : UnitId) : UnitCfg := s.cfg.loaded.units[u]

def State.modPort (s : State) (p : Port) (f : PortRec → PortRec) : State := { s with ports := upd s.ports p f }
def State.modElem (s : State) (e : ElemId) (f : ElemRun → ElemRun) : State :=
  { s with etu := { s.etu with elems := upd s.etu.elems e f } }
def State.modAuth (s : State) (p : Port) (f : AuthRec → AuthRec) : State :=
  { s with etu := { s.etu with auth := upd s.etu.auth p f } }
def State.modUnit (s : State) (u : UnitId) (f : UnitRun → UnitRun) : State :=
  { s with dpm := { s.dpm with units := upd s.dpm.units u f } }
def State.modZone (s : State) (z : ZoneId) (f : ZoneRun → ZoneRun) : State := { s with zones := upd s.zones z f }
def State.modNode (s : State) (n : NodeId) (f : NodeRun → NodeRun) : State :=
  { s with flc := { s.flc with nodes := upd s.flc.nodes n f } }
def State.modCsc (s : State) (f : Csc → Csc) : State := { s with csc := f s.csc }
def State.modPa (s : State) (f : PaPort → PaPort) : State := s.modCsc fun c => { c with pa := f c.pa }
def State.setQueue (s : State) (q : List Waiter) : State := { s with dpm := { s.dpm with queue := q } }
def State.setAlarmed (s : State) (z : ZoneSet) : State := { s with etu := { s.etu with alarmed := z } }

/-- Change every element record. -/
def State.mapElems (s : State) (f : ElemRun → ElemRun) : State :=
  { s with etu := { s.etu with elems := Vector.ofFn fun e => f s.etu.elems[e] } }

/-- Change the operation record of an element that has one (R20). -/
def State.modOp (s : State) (e : ElemId) (f : OpRec → OpRec) : State :=
  s.modElem e fun r => { r with op := r.op.map f }

/-- A unit is installed when its start output and running input are bound (R78). -/
def unitInstalled (c : UnitCfg) : Bool := c.startOut.isSome && c.running.isSome

/-! ### Field channels -/

/-- An input channel as a node's image gives it: 0, 1 or unknown (R3, R182). -/
def channelOf (image : Option Word16) (c : Chan) : Option Bool := image.map fun w => w.getLsbD c.line.val

/-- What a binding reads: unknown where the channel is unknown or unbound (R3). -/
def State.input (s : State) : Option Chan → Option Bool
  | some c => channelOf (s.node c.node).inputs c
  | none => none

/-- What a binding read when node n's image was `was`. -/
def State.inputBefore (s : State) (n : NodeId) (was : Option Word16) : Option Chan → Option Bool
  | some c => channelOf (if c.node = n then was else (s.node c.node).inputs) c
  | none => none

/-- Set or clear one bit of a 16-bit image. -/
def setBit (w : Word16) (i : Fin 16) (b : Bool) : Word16 :=
  if b then w ||| ((1 : Word16) <<< i.val) else w &&& ~~~((1 : Word16) <<< i.val)

/-- Write an output channel into its node's output image; an output that is not bound is not written (R28, R188). -/
def State.drive (s : State) (c : Option Chan) (b : Bool) : State :=
  match c with
  | some c => s.modNode c.node fun n => { n with outputs := setBit n.outputs c.line b }
  | none => s

/-! ### The transmit FIFO and attentions -/

/-- Free places of a transmit FIFO; a reserved place counts as taken (R172, R175). -/
def PortRec.free (r : PortRec) : Nat := txCapacity - r.tx.length

/-- A place is reserved for a response that is not yet placed (R173). -/
def TxPlace.isReserved : TxPlace → Bool
  | .reserved _ _ => true
  | _ => false

/-- The OK of a SOFT-RESET that waits to be sent (R180). -/
def TxPlace.isSoftOk : TxPlace → Bool
  | .softResetOk _ => true
  | _ => false

/-- The ATTENTION codes of the frame layout (spec/09, section 9.12). -/
def attnElement : Byte := 0x01
def attnEvent : Byte := 0x02
def attnOwed : Byte := 0x03

/-- What the SLC does with an attention handed to a port (R175). -/
def PortRec.attend (code : Byte) (payload : List Byte) (r : PortRec) : PortRec :=
  if r.link ≠ .up then r
  else if 2 ≤ r.free then
    if r.owed then { r with tx := r.tx ++ [.attention attnOwed []], owed := false }
    else { r with tx := r.tx ++ [.attention code payload] }
  else { r with owed := true }

/-- Hand one attention to the ports that `admits` names, in ascending port number. -/
def State.attend (s : State) (admits : Port → Bool) (code : Byte) (payload : List Byte) : State :=
  (List.finRange 4).foldl (fun s p => if admits p then s.modPort p (PortRec.attend code payload) else s) s

/-! ### The event queue -/

/-- Set the overflow flag of the youngest entry (R164). -/
def flagYoungest : List EventEntry → List EventEntry
  | [] => []
  | [e] => [{ e with overflow := true }]
  | e :: es => e :: flagYoungest es

/-- Event attentions go to the ports of role BRIDGE and SAFETY (R164). -/
def State.hearsEvents (s : State) (p : Port) : Bool := s.role p = .bridge || s.role p = .safety

/-- The RPU takes an event (R164). -/
def State.raise (s : State) (k : EventKind) (source : Byte) (detail : Word16) : State :=
  if s.rpu.events.length < eventCapacity then
    let entry : EventEntry := { kind := k, source := source, detail := detail, time := s.time, overflow := false }
    let s := { s with rpu := { s.rpu with events := s.rpu.events ++ [entry] } }
    s.attend s.hearsEvents attnEvent [k.code]
  else { s with rpu := { s.rpu with events := flagYoungest s.rpu.events } }

/-! ### The report list -/

/-- An element is in the report list exactly when its pending set is nonempty (R152). -/
def ElemRun.listed (r : ElemRun) : Bool := r.pend.ended || r.pend.stage || r.pend.alert

/-- The class of an element's report-list entry (R153). -/
def ElemRun.reportClass (r : ElemRun) : Nat :=
  if r.pend.ended || r.pend.stage then
    match r.op with
    | some o => o.cls
    | none => r.cls
  else r.cls

/-- A class mask holds a class. -/
def maskHas (m : ClassMask) (c : Nat) : Bool := m.getLsbD c

/-- The payload of ATTENTION(ELEMENT): element, class, pending kinds (spec/09, section 9.12). -/
def State.elementNotice (s : State) (e : ElemId) : List Byte :=
  [byteOf e.val, byteOf (s.elem e).reportClass, (s.elem e).pend.code]

/-- The RPU's treatment of the notice for one element, from the state before the event and after it (R154, R160). -/
def notice (s0 s : State) (e : ElemId) : State :=
  let before := s0.elem e
  let after := s.elem e
  if after.listed then
    if before.listed then
      if before.reportClass = after.reportClass then s
      else
        s.attend (fun p => maskHas s.rpu.masks[p] after.reportClass && !maskHas s.rpu.masks[p] before.reportClass)
          attnElement (s.elementNotice e)
    else s.attend (fun p => maskHas s.rpu.masks[p] after.reportClass) attnElement (s.elementNotice e)
  else s

/-- The report list after an event: the entries whose pending sets were emptied leave, the new ones join in ascending
element number (R152). -/
def joinReports (s0 s : State) : List ElemId :=
  s.etu.reports.filter (fun e => (s.elem e).listed || !(s0.elem e).listed) ++
    (List.finRange 32).filter (fun e => (s.elem e).listed && !(s0.elem e).listed)

/-- The end of an event that the ETU took: the report list follows the pending sets, and the notices go out (R152,
R154, R160). `s0` is the state before the event. -/
def finishReports (s0 s : State) : State :=
  let s := { s with etu := { s.etu with reports := joinReports s0 s } }
  (List.finRange 32).foldl (notice s0) s

/-- The first report-list entry whose class a mask holds (R157, R161). -/
def State.firstReport (s : State) (m : ClassMask) : Option ElemId :=
  s.etu.reports.find? fun e => maskHas m (s.elem e).reportClass

/-- One attention to a port for the oldest report-list entry whose class `admits` holds (R161). -/
def upAttention (admits : ClassMask) (p : Port) (s : State) : State :=
  match s.firstReport admits with
  | some e => s.modPort p (PortRec.attend attnElement (s.elementNotice e))
  | none => s

/-! ### Requests -/

/-- What an owner gives the SLC for a request: a response, the OK of a SOFT-RESET, or nothing until its work ends
(R173, R180). -/
inductive Reply where
  | response (a : Answer) (data : List Byte)
  | softOk
  | later
  deriving DecidableEq, Repr

/-- A request can be handed on: no earlier request of the port awaits its response and a transmit place is free
(R173). That a request awaits its response as long as its reserved place stands is the model's reading: a port that is lost
during its own commit loses the place (R177), and once it is UP again its requests are handed on although that commit still
runs (log 40). -/
def PortRec.canHandOn (r : PortRec) : Bool :=
  r.link = .up && r.tx.all (fun t => !t.isReserved) && r.tx.length < txCapacity

/-- Put the response into the place reserved for it (R173). -/
def fillPlace (a : Answer) (data : List Byte) : TxPlace → TxPlace
  | .reserved seq code => .response seq code (a.code :: data)
  | t => t

/-- The OK of a SOFT-RESET goes behind a frame already on the line and ahead of every other (R180). -/
def PortRec.placeSoftOk (seq : Byte) (r : PortRec) : PortRec :=
  let rest := r.tx.filter fun t => !t.isReserved
  { r with tx := if r.sending then rest.take 1 ++ .softResetOk seq :: rest.drop 1 else .softResetOk seq :: rest }

/-- Place a reply. -/
def PortRec.place (seq : Byte) (reply : Reply) (r : PortRec) : PortRec :=
  match reply with
  | .response a data => { r with tx := r.tx.map (fillPlace a data) }
  | .softOk => r.placeSoftOk seq
  | .later => r

/-- A block's treatment of a request. -/
abbrev Owner := State → State × Reply

/-- A transmit place is reserved for the response (R173). -/
def State.reserve (s : State) (p : Port) (seq code : Byte) : State :=
  s.modPort p fun r => { r with tx := r.tx ++ [.reserved seq code] }

/-- A request is taken by its owner: the place is reserved, the owner acts, its reply is placed, and the report list
follows (R173, R152). -/
def take (p : Port) (seq code : Byte) (owner : Owner) (s : State) : State :=
  let s := s.reserve p seq code
  let r := owner s
  finishReports s (r.1.modPort p (PortRec.place seq r.2))

/-- A request row of the table: the request stands alone at the head of its port's receive FIFO and is handed on
(R173; log 1). Where it cannot be handed on, nothing happens. -/
def request (p : Port) (seq code : Byte) (owner : Owner) (s : State) : State :=
  if (s.port p).rx = [] ∧ (s.port p).canHandOn then take p seq code owner s else s

/-- Answer in a state. -/
def answer (a : Answer) (data : List Byte) (s : State) : State × Reply := (s, .response a data)

/-- A refusal that carries nothing after its outcome (R174). -/
def refuse (a : Answer) (s : State) : State × Reply := answer a [] s

/-- Every command ends in a next state: the manual gives the part no way to stop (log 28). -/
abbrev Result := Host.Outcome State Fault Refusal

end Sys2Proof.Machine
end

