-- ==== Sys2Proof/Machine/Operands.lean ====
section
/-!
DEFINITION. The operands of the commands: the payload of each request as its layout gives it (spec/09, section 9.12), the
element, unit, zone or port that a byte names (R1, R93, R99), and the zone set that target references name (R123).
-/

namespace Sys2Proof.Machine

/-! ### Payloads: none where the length is not the layout's (R173) -/

/-- A 16-bit field, high byte first. -/
def word16 (hi lo : Byte) : Word16 := hi ++ lo

/-- A 32-bit field, high byte first. -/
def word32 (b3 b2 b1 b0 : Byte) : Word32 := (b3 ++ b2) ++ (b1 ++ b0)

/-- LEN 0. -/
def noFields : List Byte → Option Unit
  | [] => some ()
  | _ => none

/-- LEN 1. -/
def oneByte : List Byte → Option Byte
  | [b] => some b
  | _ => none

/-- LEN 2. -/
def twoBytes : List Byte → Option (Byte × Byte)
  | [a, b] => some (a, b)
  | _ => none

/-- MODIFY, LEN 5. -/
def modifyFields : List Byte → Option ModifyFields
  | [e, en, m, c, mp] => some { elem := e, enabled := en, mask := m, cls := c, multipath := mp }
  | _ => none

/-- START, LEN 8. -/
def startFields : List Byte → Option StartFields
  | [e, k, t3, t2, t1, t0, c, f] => some { elem := e, kind := k, tag := word32 t3 t2 t1 t0, cls := c, flags := f }
  | _ => none

/-- References of two bytes each. -/
def refPairs : List Byte → Option (List RawRef)
  | [] => some []
  | [_] => none
  | k :: a :: rest => (refPairs rest).map ({ kind := k, arg := a } :: ·)

/-- CALL, LEN 10 + 2n. -/
def callFields : List Byte → Option CallFields
  | cue :: level :: repeats :: interval :: e1 :: e0 :: ck :: co :: cp :: n :: rest =>
    if rest.length = 2 * n.toNat then
      (refPairs rest).map fun refs =>
        { cue := cue, level := level, repeats := repeats, interval := interval, expiry := word16 e1 e0, cancelKind := ck
          cancelObject := co, cancelPos := cp, refs := refs }
    else none
  | _ => none

/-- CFG-WRITE, LEN 3 at least; the rest of its length depends on the section (R193). -/
def writeFields : List Byte → Option WriteFields
  | sect :: entry :: flags :: fields => some { sect := sect, entry := entry, flags := flags, fields := fields }
  | _ => none

/-! ### Named objects -/

/-- The configured element that a byte names, or none: the number is above 31 or names an empty place (R1). -/
def State.elem? (s : State) (b : Byte) : Option (ElemId × ElementCfg) :=
  (index? 32 b).bind fun e => (s.elemCfg e).map fun c => (e, c)

/-- The installed unit that a byte names (R93). -/
def State.unit? (s : State) (b : Byte) : Option UnitId :=
  (index? 4 b).bind fun u => if unitInstalled (s.unitCfg u) then some u else none

/-- The zone place that a zone number 1 to 16 names. -/
def zoneIndex? (b : Byte) : Option ZoneId := if b = 0 then none else index? 16 (b - 1)

/-- The configured zone that a zone number names (R99). -/
def State.zone? (s : State) (b : Byte) : Option (ZoneId × ZoneCfg) :=
  (zoneIndex? b).bind fun z => (s.zoneCfg z).map fun c => (z, c)

/-- The zone set of one zone. -/
def zoneBit (z : ZoneId) : ZoneSet := (1 : ZoneSet) <<< z.val

/-- A zone is in a zone set. -/
def inZones (set : ZoneSet) (z : ZoneId) : Bool := set.getLsbD z.val

/-- A unit is in a path mask. -/
def inPath (m : PathMask) (u : UnitId) : Bool := m.getLsbD u.val

/-- The zones that a predicate on configured zones names. -/
def zonesWhere (img : Image) (f : ZoneCfg → Bool) : ZoneSet :=
  (List.finRange 16).foldl
    (fun set z =>
      match img.zones[z] with
      | some c => if f c then set ||| zoneBit z else set
      | none => set) 0

/-- A door is of kind DOOR; every other kind is powered (spec/00, Terms). -/
def isDoor (c : ElementCfg) : Bool := c.kind = .door

/-- An element has a lock bound when its lock inputs are present (R3). -/
def lockBound (c : ElementCfg) : Bool := c.locked.isSome && c.unlocked.isSome

/-- A door bounds a zone when the zone is among its boundary zones (R108 to R111, section 6.4). -/
def boundsZone (c : ElementCfg) (z : ZoneId) : Bool := isDoor c && inZones c.boundary z

/-- The deck of an element is the deck of its home zone (R2, note 1). -/
def State.deckOf (s : State) (c : ElementCfg) : Option Nat := (s.zoneCfg c.homeZone).map (·.deck)

/-- The elements of a table place, configured or not, in ascending number. -/
def elements : List ElemId := List.finRange 32

/-- The units in ascending number. -/
def units : List UnitId := List.finRange 4

/-- The zones in ascending number. -/
def zoneIds : List ZoneId := List.finRange 16

/-- The ports in ascending number. -/
def portIds : List Port := List.finRange 4

/-! ### Target references (R123) -/

/-- What HOME_DECK and TRIGGER_ZONE stand for; none where the reference is refused FORM. -/
structure RefContext where
  homeDeck : Option Nat
  trigger  : Option ZoneId

/-- A reference whose kind and number are of those that R123 and R124 admit: kinds 1 to 6, zone 1 to 16, deck 1 to 6. The
layout gives 0 as the number of a kind that takes none, and no rule says whether another value is in range: admitting any is
the model's choice (log 38). -/
def refInRange (r : RawRef) : Bool :=
  if r.kind = 1 then decide (1 ≤ r.arg.toNat ∧ r.arg.toNat ≤ 16)
  else if r.kind = 2 then decide (1 ≤ r.arg.toNat ∧ r.arg.toNat ≤ 6)
  else decide (3 ≤ r.kind.toNat ∧ r.kind.toNat ≤ 6)

/-- The zones that one reference names, or none where its resolution fails (R123). -/
def resolveRef (img : Image) (ctx : RefContext) (r : RawRef) : Option ZoneSet :=
  match r.kind.toNat with
  | 1 =>
    match zoneIndex? r.arg with
    | some z => if img.zones[z].isSome then some (zoneBit z) else none
    | none => none
  | 2 => some (zonesWhere img fun c => c.deck = r.arg.toNat)
  | 3 => some (zonesWhere img fun c => c.kind = .passenger)
  | 4 => some (zonesWhere img fun c => c.kind = .vehicle)
  | 5 => ctx.homeDeck.map fun d => zonesWhere img fun c => c.deck = d
  | 6 => ctx.trigger.map zoneBit
  | _ => none

/-- The union of what the references name; none where one fails or the union is empty (R123). -/
def resolveRefs (img : Image) (ctx : RefContext) (refs : List RawRef) : Option ZoneSet :=
  match refs.foldl (fun acc r => acc.bind fun set => (resolveRef img ctx r).map (set ||| ·)) (some 0) with
  | some set => if set = 0 then none else some set
  | none => none

end Sys2Proof.Machine
end

