-- ==== Sys2Proof/Machine/Flags.lean ====
section
/-!
DEFINITION. What the part computes from its inputs and flags: position and lock state (R5, R6), alert reasons (R9), the
pending kinds and the overrun flag (R10, R151), interlock entries (R51, R52), and the alarmed boundary zones of a door
(R109, R112).
-/

namespace Sys2Proof.Machine

/-! ### Position and lock state -/

/-- The position decoded from the closed and open limit inputs (R5). -/
def decodePosition : Option Bool → Option Bool → Position
  | some true, some false => .closed
  | some false, some true => .opened
  | some false, some false => .between
  | some true, some true => .conflict
  | _, _ => .unknown

/-- The lock state decoded from the locked and unlocked inputs (R6). -/
def decodeLock : Option Bool → Option Bool → LockState
  | some true, some false => .locked
  | some false, some true => .unlocked
  | some false, some false => .midway
  | some true, some true => .conflict
  | _, _ => .unknown

/-- The position that an element's inputs give now. -/
def State.positionNow (s : State) (c : ElementCfg) : Position :=
  decodePosition (s.input c.closedLimit) (s.input c.openLimit)

/-- The lock state that an element's inputs give now, NONE without a lock bound (R6). -/
def State.lockNow (s : State) (c : ElementCfg) : LockState :=
  if lockBound c then decodeLock (s.input c.locked) (s.input c.unlocked) else .none

/-- An obstruction input that reads unknown counts as true; a door without one is never obstructed (R3, R36). -/
def obstructedBy (c : ElementCfg) (reads : Option Chan → Option Bool) : Bool :=
  c.obstruction.isSome && reads c.obstruction != some false

/-- The obstruction input as it reads now. -/
def State.obstructed (s : State) (c : ElementCfg) : Bool := obstructedBy c s.input

/-! ### Alerts -/

/-- The reason of a change of position, for a quantity already seen, or first decoded as CONFLICT (R8, R9). -/
def positionAlert (seen : Bool) (old new : Position) : AlertReason :=
  if old = new then .none
  else
    match new with
    | .conflict => .conflict
    | .unknown => if seen then .lost else .none
    | _ => if seen then (if old = .unknown then .regained else .moved) else .none

/-- The reason of a change of lock state (R8, R9). -/
def lockAlert (seen : Bool) (old new : LockState) : AlertReason :=
  if old = new then .none
  else
    match new with
    | .conflict => .conflict
    | .unknown => if seen then .lost else .none
    | .none => .none
    | _ => if seen then (if old = .unknown then .regained else .moved) else .none

/-- The first of LOST, CONFLICT, REGAINED and MOVED that either change gives (R9, note 1). -/
def firstReason (a b : AlertReason) : AlertReason :=
  if a = .lost ∨ b = .lost then .lost
  else if a = .conflict ∨ b = .conflict then .conflict
  else if a = .regained ∨ b = .regained then .regained
  else if a = .moved ∨ b = .moved then .moved
  else .none

/-- ALERT is set, or set again: the new reason replaces the old and the overrun flag is set (R9, R10). -/
def ElemRun.alert (reason : AlertReason) (r : ElemRun) : ElemRun :=
  if reason = .none then r
  else { r with pend := { r.pend with alert := true }, alertReason := reason, overrun := r.overrun || r.pend.alert }

/-- Nothing is pending and nothing was overrun: after a collection or a CLEAR (R156, R48). -/
def ElemRun.unreport (r : ElemRun) : ElemRun :=
  { r with pend := { ended := false, stage := false, alert := false }, overrun := false }

/-- An ENDED record is replaced: the record is discarded, ENDED leaves, and the overrun flag is set (R26, R108). -/
def ElemRun.dropEnded (r : ElemRun) : ElemRun :=
  { r with op := none, pend := { r.pend with ended := false }, overrun := true }

/-! ### Activity -/

/-- An operation is in progress when the activity is START_PENDING, ACTIVE or SUSPENDED (R110). -/
def Activity.inProgress (a : Activity) : Bool := a = .startPending || a = .active || a = .suspended

/-- The reasons set is empty (R42). -/
def Reasons.isEmpty (r : Reasons) : Bool := !r.consent && !r.interlock && !r.path

/-! ### Interlocks -/

/-- The position column of R51. -/
def positionMatches (needOpen : Bool) (p : Position) : Bool := p = if needOpen then .opened else .closed

/-- The lock column of R51. -/
def lockMatches : LockNeed → LockState → Bool
  | _, .unknown => false
  | .any, _ => true
  | .locked, l => l = .locked
  | .unlocked, l => l = .unlocked

/-- An entry is satisfied (R51). -/
def State.satisfied (s : State) (i : InterlockCfg) : Bool :=
  positionMatches i.needOpen (s.elem i.prerequisite).position && lockMatches i.needLock (s.elem i.prerequisite).lock

/-- An entry's operation kind matches an operation (R52). -/
def kindApplies : InterlockKind → OpKind → Bool
  | .onAny, _ => true
  | .onOpen, k => k = .opening
  | .onClose, k => k = .closing

/-- The lowest-numbered unsatisfied entry that applies to an operation of this kind on this element (R52). -/
def State.failingEntry (s : State) (e : ElemId) (k : OpKind) : Option (Fin 32) :=
  (List.finRange 32).find? fun i =>
    match s.cfg.loaded.interlocks[i] with
    | some c => c.dependent = e && kindApplies c.opKind k && !s.satisfied c
    | none => false

/-- The lowest unsatisfied entry of the operation in an element's record; none while it carries the zone-required mark
(R52, R60). -/
def State.opFailingEntry (s : State) (e : ElemId) : Option (Fin 32) :=
  match (s.elem e).op with
  | some o => if o.mark then none else s.failingEntry e o.kind
  | none => none

/-- An entry that names `pre` as prerequisite applies to the operation in progress on an element (R55). -/
def State.dependsOn (s : State) (pre e : ElemId) : Bool :=
  match (s.elem e).op with
  | some o =>
    !o.mark && (List.finRange 32).any fun i =>
      match s.cfg.loaded.interlocks[i] with
      | some c => c.dependent = e && c.prerequisite = pre && kindApplies c.opKind o.kind
      | none => false
  | none => false

/-! ### Doors and alarmed zones -/

/-- The lowest-numbered boundary zone of a door in the alarmed-zone set (R108, R112). -/
def State.lowestAlarmed (s : State) (c : ElementCfg) : Option ZoneId :=
  zoneIds.find? fun z => boundsZone c z && inZones s.etu.alarmed z

/-- A boundary zone of the door is in the alarmed-zone set. -/
def State.doorAlarmed (s : State) (c : ElementCfg) : Bool := (s.lowestAlarmed c).isSome

/-- A door is able to take a closure (R109). -/
def ElemRun.canClose (r : ElemRun) : Bool :=
  r.enabled && (r.activity = .idle || r.activity = .ended) && (r.position = .opened || r.position = .between)

end Sys2Proof.Machine
end

