-- ==== Sys2Proof/Machine/Calls.lean ====
section
/-!
DEFINITION. The Call Scheduler: call entries and their places (R120 to R122), acceptance and merge (R124 to R127),
muting and selection (R128, R129), the PA port (R130 to R133), preemption and the stack (R134 to R136), repetitions and
expiries (R137 to R139), removal, cancel conditions and bindings (R140 to R145).
-/

namespace Sys2Proof.Machine

/-! ### Entries -/

/-- The play's entry while it is live (R121). -/
def Csc.playEntry (c : Csc) : Option CallEntry := c.slot.bind Play.entry

/-- The live entries in the order of CALL-LIST: the play's entry, the stack from its top, the queue (R143). -/
def Csc.live (c : Csc) : List CallEntry := c.playEntry.toList ++ c.stack ++ c.queue

/-- Change every live entry (R121). -/
def Csc.mapEntries (f : CallEntry → CallEntry) (c : Csc) : Csc :=
  { c with
    queue := c.queue.map f
    stack := c.stack.map f
    slot := c.slot.map fun p => { p with entry := p.entry.map f } }

/-- The zones of a set that are not muted for a level (R128). -/
def Csc.effective (c : Csc) (zones : ZoneSet) (level : Nat) : ZoneSet :=
  if level ≤ 1 then zones else zones &&& ~~~c.muted

/-- An entry is playable when its effective set is not empty (R128). -/
def Csc.playable (c : Csc) (e : CallEntry) : Bool := c.effective e.zones e.level ≠ 0

/-- An entry joins the queue in its place by acceptance order number (R121, R137). -/
def insertEntry (e : CallEntry) : List CallEntry → List CallEntry
  | [] => [e]
  | x :: xs => if e.order ≤ x.order then e :: x :: xs else x :: insertEntry e xs

/-- The time left to an expiry, 0 where the part time has reached it; an expiry lies at most 3600 s ahead (R120, R125,
R197; log 14). -/
def timeLeft (now : Word32) (expiry : Word32) : Nat :=
  let d := expiry - now
  if d.msb then 0 else d.toNat

/-- The later of two expiries: none counts as more time left than any (R125). -/
def laterExpiry (now : Word32) : Option Word32 → Option Word32 → Option Word32
  | some a, some b => if timeLeft now a < timeLeft now b then some b else some a
  | _, _ => none

/-! ### The PA port (R130 to R133) -/

/-- The lines of a port that offers no play (R130). -/
def PaPort.rest (st : PaState) (p : PaPort) : PaPort :=
  { p with state := st, timer := none, cue := 0, zones := 0, play := false, stop := false }

/-- STOP is raised: STOPPING with tPAS (R132). -/
def PaPort.raiseStop (p : PaPort) : PaPort := { p with state := .stopping, stop := true, timer := some tPas }

/-- A play is offered: STARTING with tPAA (R131). -/
def PaPort.offer (cue : Byte) (zones : ZoneSet) (p : PaPort) : PaPort :=
  { p with state := .starting, timer := some tPaa, cue := cue, zones := zones, play := true, stop := false }

/-- Stop the play: STOP is raised in PLAYING, owed in STARTING, and a play already being stopped is not stopped again
(R132). -/
def Csc.stopPlay (c : Csc) : Csc :=
  match c.pa.state with
  | .playing => { c with pa := c.pa.raiseStop }
  | .starting => { c with slot := c.slot.map fun p => { p with stopOwed := true } }
  | _ => c

/-- The preemption test for a newly playable entry of a level (R134). -/
def Csc.preempt (level : Nat) (c : Csc) : Csc :=
  match c.slot with
  | some { entry := some e, stopOwed := false, .. } =>
    if (c.pa.state = .starting ∨ c.pa.state = .playing) ∧ level < e.level then c.stopPlay else c
  | _ => c

/-! ### Selection (R129) -/

/-- The more urgent of two candidates: lower level, then lower acceptance order number (R129). -/
def moreUrgent (a b : CallEntry) : CallEntry :=
  if b.level < a.level ∨ b.level = a.level ∧ b.order < a.order then b else a

/-- The best candidate of the queue (R129). -/
def Csc.queueBest (c : Csc) : Option CallEntry :=
  match c.queue.filter fun e => e.state = .queued && c.playable e with
  | [] => none
  | e :: es => some (es.foldl moreUrgent e)

/-- The stack top, when it is playable (R129). -/
def Csc.stackBest (c : Csc) : Option CallEntry := c.stack.head?.filter c.playable

/-- The chosen candidate: the most urgent, the stack top before the queue at equal level (R129). -/
def Csc.chosen (c : Csc) : Option CallEntry :=
  match c.stackBest, c.queueBest with
  | some t, some q => if t.level ≤ q.level then some t else some q
  | some t, none => some t
  | none, q => q

/-- The play of an entry starts (R129, R131). -/
def Csc.startPlay (e : CallEntry) (c : Csc) : Csc :=
  let zones := c.effective e.zones e.level
  { c with
    queue := c.queue.filter fun x => x.id ≠ e.id
    stack := c.stack.filter fun x => x.id ≠ e.id
    slot := some { cue := e.cue, zones := zones, entry := some { e with state := .playing, expired := false }
                   stopOwed := false }
    pa := c.pa.offer e.cue zones }

/-- Selection, at the end of every event taken by the CSC (R129). -/
def select (s : State) : State :=
  if s.csc.pa.state = .idle ∧ s.csc.pa.busy = false ∧ s.cfg.startUp = .run then
    match s.csc.chosen with
    | some e => s.modCsc (Csc.startPlay e)
    | none => s
  else s

/-! ### Acceptance (R122, R125 to R127) -/

/-- What a call asks for; `expiry` in seconds, 0 for none. -/
structure NewCall where
  cue        : Byte
  zones      : ZoneSet
  level      : Nat
  repeats    : Nat
  interval   : Nat
  expiry     : Nat
  cancel     : CancelCond
  originator : Option Port
  deriving DecidableEq, Repr

/-- The part time at which a call accepted now expires (R120). -/
def NewCall.expiryTime (now : Word32) (n : NewCall) : Option Word32 :=
  if n.expiry = 0 then none else some (now + BitVec.ofNat 32 (seconds n.expiry))

/-- A call matches an entry of the same cue, zone set and level (R125). -/
def NewCall.fitsEntry (n : NewCall) (e : CallEntry) : Bool :=
  e.cue = n.cue && e.zones = n.zones && e.level = n.level

/-- The merge into one entry (R125): an expired mark clears when the expiry becomes later. -/
def mergeEntry (now : Word32) (n : NewCall) (e : CallEntry) : CallEntry :=
  let expiry := laterExpiry now e.expiry (n.expiryTime now)
  { e with
    repeats := max e.repeats n.repeats
    expiry := expiry
    expired := e.expired && expiry = e.expiry }

/-- The first id that is not live, upward from the next call id and wrapping from 255 to 1 (R122). -/
def Csc.freeId (c : Csc) : Byte :=
  let id : Nat → Byte := fun k => byteOf ((c.nextId.toNat + 254 + k) % 255 + 1)
  match (List.range 255).find? fun k => c.live.all fun e => e.id ≠ id k with
  | some k => id k
  | none => c.nextId

/-- The next call id after a taken one (R122). -/
def idAfter (id : Byte) : Byte := if id = 255 then 1 else id + 1

/-- Renumbering before the count would pass 2^32 - 1 (R122). -/
def Csc.renumber (c : Csc) : Csc :=
  if c.acceptCount = 0xFFFFFFFF then
    let rank : CallEntry → Word32 := fun e =>
      BitVec.ofNat 32 (1 + (c.live.filter fun x => x.order < e.order).length)
    { c.mapEntries (fun e => { e with order := rank e }) with acceptCount := BitVec.ofNat 32 c.live.length }
  else c

/-- The outcome of a call at the CSC (R124, orders 7 to 9). -/
inductive Accepted where
  | merged (id : Byte)
  | new (id : Byte)
  | full
  deriving DecidableEq, Repr

/-- A new entry (R126). -/
def NewCall.entry (now : Word32) (id : Byte) (order : Word32) (n : NewCall) : CallEntry where
  id := id
  cue := n.cue
  zones := n.zones
  level := n.level
  repeats := n.repeats
  interval := n.interval
  expiry := n.expiryTime now
  cancel := n.cancel
  originator := n.originator
  order := order
  state := .queued
  timer := none
  expired := false

/-- A call is made a new entry, with the preemption test it makes (R122, R126). -/
def Csc.addEntry (now : Word32) (n : NewCall) (c : Csc) : Csc :=
  let id := c.freeId
  let c := c.renumber
  let e := n.entry now id (c.acceptCount + 1)
  let c := { c with queue := c.queue ++ [e], nextId := idAfter id, acceptCount := c.acceptCount + 1 }
  if c.playable e then c.preempt e.level else c

/-- A call that has passed its checks: merged, made a new entry, or without room (R125, R126). -/
def accept (n : NewCall) (s : State) : State × Accepted :=
  match s.csc.live.find? n.fitsEntry with
  | some e =>
    (s.modCsc (Csc.mapEntries fun x => if x.id = e.id then mergeEntry s.time n x else x), .merged e.id)
  | none =>
    if s.csc.queue.length < callCapacity then (s.modCsc (Csc.addEntry s.time n), .new s.csc.freeId) else (s, .full)

/-- CALL_LOST (R146). -/
def callLost (why : LostReason) (id cue : Byte) (s : State) : State := s.raise .callLost id (why.detail cue)

/-- An internal call (R127). -/
def internalCall (n : NewCall) (s : State) : State :=
  match accept n s with
  | (s, .full) => callLost .full 0 n.cue s
  | (s, _) => s

/-! ### Removal (R140) -/

/-- Every live entry that a predicate names is removed from the place where it stands (R140). -/
def Csc.remove (f : CallEntry → Bool) (c : Csc) : Csc :=
  let playGoes := c.playEntry.any f
  let c := { c with queue := c.queue.filter fun e => !f e, stack := c.stack.filter fun e => !f e }
  if playGoes then
    Csc.stopPlay { c with slot := c.slot.map fun p : Play => { p with entry := none } }
  else c

/-! ### Returning entries (R133, R135, R137) -/

/-- An entry returns to the queue in its place, or is lost when the queue holds 32 entries (R137). -/
def returnEntry (e : CallEntry) (s : State) : State :=
  if s.csc.queue.length < callCapacity then s.modCsc fun c => { c with queue := insertEntry e c.queue }
  else callLost .full e.id e.cue s

/-- A completed play (R137). -/
def completeEntry (e : CallEntry) (s : State) : State :=
  if e.expired then s
  else if e.repeats ≤ 1 then s
  else
    let e := { e with repeats := e.repeats - 1 }
    if e.interval = 0 then returnEntry { e with state := .queued, timer := none } s
    else returnEntry { e with state := .interval, timer := some (seconds e.interval) } s

/-- The entry of a play stopped by preemption is pushed (R135). -/
def pushEntry (e : CallEntry) (s : State) : State :=
  if e.expired then s
  else
    let s :=
      if s.csc.stack.length < stackCapacity then s
      else
        match s.csc.stack.getLast? with
        | some b => callLost .stack b.id b.cue (s.modCsc fun c => { c with stack := c.stack.dropLast })
        | none => s
    s.modCsc fun c => { c with stack := { e with state := .stacked } :: c.stack }

/-- The playing slot empties and the port takes a state with its lines low (R131 to R133). -/
def Csc.emptySlot (st : PaState) (c : Csc) : Csc := { c with slot := none, pa := c.pa.rest st }

/-- What becomes of the play's entry, where it still has one. -/
def withPlayEntry (f : CallEntry → State → State) (before s : State) : State :=
  match before.csc.playEntry with
  | some e => f e s
  | none => s

/-- The port enters FAULT (R133). -/
def paFault (cause : PaCause) (s : State) : State :=
  let back := fun (e : CallEntry) (s : State) =>
    if e.expired then s else returnEntry { e with state := .queued } s
  (withPlayEntry back s (s.modCsc (Csc.emptySlot .fault))).raise .paFault 0 cause.detail

/-! ### Notices (R105, R128, R141, R145) -/

/-- The zones that HOME_DECK and TRIGGER_ZONE name from an element's or an alarm's zone (R123). -/
def zoneContext (img : Image) (z : ZoneId) : RefContext where
  homeDeck := img.zones[z].map ZoneCfg.deck
  trigger := some z

/-- The alarm call request of a zone (R106). -/
def alarmCall (z : ZoneId) (s : State) : State :=
  match s.zoneCfg z with
  | none => s
  | some c =>
    match resolveRefs s.cfg.loaded (zoneContext s.cfg.loaded z) (c.refs.take c.nRefs) with
    | none => s
    | some set =>
      internalCall
        { cue := c.cue, zones := set, level := 1, repeats := c.repeats, interval := c.interval, expiry := 0
          cancel := .zoneNormal z, originator := none } s

/-- The mute notice and the alarm call request of a zone, one event at the CSC (R105, R106). -/
def cscAlarm (z : ZoneId) (s : State) : State :=
  select (alarmCall z (s.modCsc fun c => { c with muted := c.muted ||| zoneBit z }))

/-- The preemption test of an unmuting: for the most urgent of the QUEUED entries that it makes playable (R128,
R134). -/
def Csc.unmute (z : ZoneId) (c : Csc) : Csc :=
  let after := { c with muted := c.muted &&& ~~~zoneBit z }
  match after.queue.filter fun e => e.state = .queued && after.playable e && !c.playable e with
  | [] => after
  | e :: es => after.preempt (es.foldl moreUrgent e).level

/-- The normal notice of a zone and the renewals that follow it, one event at the CSC (R102, R107, R141). -/
def cscNormal (z : ZoneId) (alarmed : List ZoneId) (s : State) : State :=
  let s := s.modCsc (Csc.remove fun e => e.cancel = .zoneNormal z)
  let s := s.modCsc (Csc.unmute z)
  select (alarmed.foldl (fun s z => alarmCall z s) s)

/-- A binding fires (R145). -/
def fireBinding (b : BindingCfg) (s : State) : State :=
  match s.elemCfg b.element with
  | none => s
  | some c =>
    match resolveRefs s.cfg.loaded (zoneContext s.cfg.loaded c.homeZone) (b.refs.take b.nRefs) with
    | none => s
    | some set =>
      internalCall
        { cue := b.cue, zones := set, level := b.level, repeats := b.repeats, interval := b.interval
          expiry := b.expiry, cancel := if b.cancel then .leaves b.element b.entry else .none, originator := none } s

/-- The bindings that a position entry fires, in ascending number (R145). -/
def State.bindingsOf (s : State) (e : ElemId) (entered : Position) : List BindingCfg :=
  (s.cfg.loaded.bindings.toList.filterMap id).filter fun b => b.element = e && b.entry = entered

/-- A position-entry notice (R141, R145). -/
def positionEntry (e : ElemId) (left entered : Position) (s : State) : State :=
  let s := s.modCsc (Csc.remove fun x => x.cancel = .leaves e left)
  select ((s.bindingsOf e entered).foldl (fun s b => fireBinding b s) s)

/-! ### CALL (R124) -/

/-- The position that a code names (spec/09, section 9.12). -/
def position? (b : Byte) : Option Position :=
  match b.toNat with
  | 0 => some .unknown
  | 1 => some .closed
  | 2 => some .opened
  | 3 => some .between
  | 4 => some .conflict
  | _ => none

/-- CALL, check 2 (R124; log 13). The layout gives 0 as the object of cancel kind 0 and as the position of a kind other than
1; no rule says whether another value is refused FORM, and that any is accepted and not read is the model's choice
(log 41). -/
def callInForm (f : CallFields) : Bool :=
  f.cue ≠ 0 && decide (f.level.toNat ≤ 7) && decide (1 ≤ f.repeats.toNat ∧ f.repeats.toNat ≤ 8) &&
    decide (f.expiry.toNat ≤ 3600) && decide (1 ≤ f.refs.length ∧ f.refs.length ≤ 4) && f.refs.all refInRange &&
    match f.cancelKind.toNat with
    | 0 => true
    | 1 => (position? f.cancelPos).isSome
    | 2 => (zoneIndex? f.cancelObject).isSome
    | _ => false

/-- The levels a role may call at (R124, check 3). -/
def levelAllowed (r : Role) (level : Nat) : Bool :=
  match r with
  | .bridge => decide (level ≤ 7)
  | .safety => decide (level ≤ 3)
  | .deck => decide (4 ≤ level ∧ level ≤ 7)
  | .off => false

/-- The cancel condition that a CALL gives, or none where it names what is not configured (R124, check 4). -/
def State.cancelOf (s : State) (f : CallFields) : Option CancelCond :=
  match f.cancelKind.toNat with
  | 1 =>
    match s.elem? f.cancelObject, position? f.cancelPos with
    | some (e, _), some p => some (.leaves e p)
    | _, _ => none
  | 2 => (s.zone? f.cancelObject).map fun z => .zoneNormal z.1
  | _ => some .none

/-- What HOME_DECK and TRIGGER_ZONE name in a station call (R123). -/
def State.callContext (s : State) (p : Port) (cancel : CancelCond) : RefContext where
  homeDeck := if s.role p = .deck then some s.cfg.loaded.stations[p].homeDeck else none
  trigger :=
    match cancel with
    | .leaves e _ => (s.elemCfg e).map ElementCfg.homeZone
    | _ => none

/-- A cancel condition holds at acceptance (R124, check 6). -/
def State.cancelHolds (s : State) : CancelCond → Bool
  | .none => true
  | .leaves e p => (s.elem e).position = p
  | .zoneNormal z => inZones s.csc.muted z

/-- CALL (R124). -/
def ownCall (p : Port) (f : Option CallFields) (s : State) : State × Reply :=
  if s.cfg.startUp ≠ .run then refuse .mode s
  else
    match f with
    | none => refuse .form s
    | some f =>
      if !callInForm f then refuse .form s
      else if !levelAllowed (s.role p) f.level.toNat then refuse .level s
      else
        match s.cancelOf f with
        | none => refuse .unknown s
        | some cancel =>
          match resolveRefs s.cfg.loaded (s.callContext p cancel) f.refs with
          | none => refuse .form s
          | some set =>
            if !s.cancelHolds cancel then refuse .condition s
            else
              match
                accept
                  { cue := f.cue, zones := set, level := f.level.toNat, repeats := f.repeats.toNat
                    interval := f.interval.toNat, expiry := f.expiry.toNat, cancel := cancel, originator := some p } s
              with
              | (s, .merged id) => answer .accepted [id, 1] s
              | (s, .new id) => answer .accepted [id, 0] (select s)
              | (s, .full) => refuse .full s

/-! ### WITHDRAW and CALL-LIST (R142, R143) -/

/-- WITHDRAW's entitlement (R142, check 3). -/
def State.mayWithdraw (s : State) (p : Port) (e : CallEntry) : Bool :=
  e.originator = some p || s.role p = .bridge || (s.role p = .safety && e.originator = none)

/-- WITHDRAW (R142). -/
def ownWithdraw (p : Port) (f : Option Byte) (s : State) : State × Reply :=
  if s.cfg.startUp = .unconfigured then refuse .mode s
  else
    match f with
    | none => refuse .form s
    | some id =>
      match if id = 0 then none else s.csc.live.find? fun e => e.id = id with
      | none => refuse .unknown s
      | some e =>
        if !s.mayWithdraw p e then refuse .role s
        else answer .ok [e.state.code] (select (s.modCsc (Csc.remove fun x => x.id = id)))

/-- One entry of CALL-LIST, 21 bytes (R143; spec/09, section 9.12). -/
def State.callView (s : State) (e : CallEntry) : List Byte :=
  [e.id, e.cue, byteOf e.level, e.state.code, byteOf e.repeats] ++ bytes16 e.zones ++ e.cancel.codes ++
    [portByte 0xFF e.originator] ++ bytes32 e.order ++
    (match e.expiry with
      | some x => bytes32 (BitVec.ofNat 32 (timeLeft s.time x))
      | none => bytes32 0xFFFFFFFF) ++
    bytes16 (wordOf (match e.timer with | some t => t | none => 0))

/-- CALL-LIST (R143). -/
def ownCallList (f : Option Byte) (s : State) : State × Reply :=
  if s.cfg.startUp = .unconfigured then refuse .mode s
  else
    match f with
    | none => refuse .form s
    | some pos =>
      let live := s.csc.live
      let given := (live.drop pos.toNat).take 2
      answer .ok ([s.csc.pa.state.code, byteOf live.length, byteOf given.length] ++ given.flatMap s.callView) s

def execCall (p : Port) (seq : Byte) (f : CallFields) (s : State) : Result := .next (request p seq 0x50 (ownCall p (some f)) s)
def execWithdraw (p : Port) (seq id : Byte) (s : State) : Result :=
  .next (request p seq 0x51 (ownWithdraw p (some id)) s)
def execCallList (p : Port) (seq pos : Byte) (s : State) : Result := .next (request p seq 0x52 (ownCallList (some pos)) s)

/-! ### The PA port's events -/

/-- The port's inputs are acted on (R148). -/
def State.paActs (s : State) : Bool := s.cfg.startUp ≠ .unconfigured

/-- What a rise of BUSY does to a play (R131). -/
def Csc.busyRises (c : Csc) : Csc :=
  match c.pa.state with
  | .starting =>
    if c.slot.any Play.stopOwed then { c with pa := c.pa.raiseStop }
    else { c with pa := { c.pa with state := .playing, timer := some tPam } }
  | _ => c

/-- BUSY_RISE (R131); there is no rise where the line is already high (log 2). -/
def execBusyRise (s : State) : Result :=
  .next <|
    if s.csc.pa.busy then s
    else
      let s := s.modPa fun p => { p with busy := true }
      if s.paActs then s.modCsc Csc.busyRises else s

/-- What a fall of BUSY does to a play (R131, R132, R135, R137). -/
def busyFalls (s : State) : State :=
  match s.csc.pa.state with
  | .playing => withPlayEntry completeEntry s (s.modCsc (Csc.emptySlot .idle))
  | .stopping => withPlayEntry pushEntry s (s.modCsc (Csc.emptySlot .idle))
  | _ => s

/-- BUSY_FALL (R131, R132); there is no fall where the line is already low (log 2). -/
def execBusyFall (s : State) : Result :=
  .next <|
    if s.csc.pa.busy then
      let s := s.modPa fun p => { p with busy := false }
      if s.paActs then select (busyFalls s) else s
    else s

/-- What a rise of the FAULT input does (R133). -/
def faultRises (s : State) : State :=
  if s.paActs ∧ s.csc.pa.state ≠ .fault then paFault .faultInput s else s

/-- PA_FAULT_RISE (R133). -/
def execPaFaultRise (s : State) : Result :=
  .next <| if s.csc.pa.fault then s else faultRises (s.modPa fun p => { p with fault := true })

/-- PA_FAULT_FALL (R133). -/
def execPaFaultFall (s : State) : Result :=
  .next <|
    if s.csc.pa.fault then
      let s := s.modPa fun p => { p with fault := false }
      if s.paActs ∧ s.csc.pa.state = .fault then select (s.modPa (PaPort.rest .idle)) else s
    else s

/-- A limit of the PA port is reached: its timer is due in its state (R133). -/
def State.paDue (s : State) (st : PaState) : Bool := s.csc.pa.state = st && s.csc.pa.timer = some 0

/-- PA_ANSWER_TIMEOUT (R133). -/
def execPaAnswerTimeout (s : State) : Result := .next <| if s.paDue .starting then paFault .answerLimit s else s

/-- PA_PLAY_TIMEOUT (R133). -/
def execPaPlayTimeout (s : State) : Result := .next <| if s.paDue .playing then paFault .playLimit s else s

/-- PA_STOP_TIMEOUT (R133). -/
def execPaStopTimeout (s : State) : Result := .next <| if s.paDue .stopping then paFault .stopLimit s else s

/-- An interval that ends: the entry is QUEUED in the same place (R138). -/
def CallEntry.endInterval (e : CallEntry) : CallEntry := { e with state := .queued, timer := none }

/-- INTERVAL_EXPIRY of the entry with an id (R138). -/
def execIntervalExpiry (id : Byte) (s : State) : Result :=
  .next <|
    match s.csc.queue.find? fun e => e.id = id with
    | some e =>
      if e.state = .interval ∧ e.timer = some 0 then
        let s := s.modCsc fun c =>
          { c with queue := c.queue.map fun x => if x.id = id then x.endInterval else x }
        select (if s.csc.playable e then s.modCsc (Csc.preempt e.level) else s)
      else s
    | none => s

/-- The part time has reached an entry's expiry (R139, R197). -/
def State.expiryDue (s : State) (e : CallEntry) : Bool :=
  match e.expiry with
  | some x => timeLeft s.time x = 0
  | none => false

/-- CALL_EXPIRY of the entry with an id (R139). -/
def execCallExpiry (id : Byte) (s : State) : Result :=
  .next <|
    match s.csc.live.find? fun e => e.id = id with
    | some e =>
      if s.expiryDue e then
        if e.state = .playing then
          s.modCsc fun c => { c with slot := c.slot.map fun p =>
            { p with entry := p.entry.map fun x => { x with expired := true } } }
        else select (s.modCsc (Csc.remove fun x => x.id = id))
      else s
    | none => s

end Sys2Proof.Machine
end

