-- ==== Sys2Proof/Machine/Holds.lean ====
section
/-!
DEFINITION. Holds and station authority: reach (R61), the hold test (R64), CLAIM, RELEASE, GRANT and REVOKE (R67 to R70),
orphaning and return (R72 to R75), and the orphan timer's expiry.
-/

namespace Sys2Proof.Machine

/-- A port is eligible for an element: the element lies within its reach (R61). -/
def State.reaches (s : State) (p : Port) (c : ElementCfg) : Bool :=
  match s.role p with
  | .off => false
  | .bridge => true
  | .deck => s.deckOf c = some s.cfg.loaded.stations[p].homeDeck
  | .safety => isDoor c

/-- The hold test (R64): none where it passes, else the outcome and what follows it (R174). -/
def State.holdTest (s : State) (p : Port) (e : ElemId) (c : ElementCfg) : Option (Answer × List Byte) :=
  if !s.reaches p c then some (.role, [])
  else
    match (s.elem e).hold with
    | .none => some (.notHeld, [])
    | .held q => if q = p then none else some (.held, (Hold.held q).codes)
    | .orphaned q => some (.held, (Hold.orphaned q).codes)

/-- Port p's orphan set (R72). -/
def State.orphans (s : State) (p : Port) : List ElemId :=
  (List.finRange 32).filter fun e => (s.elem e).hold = .orphaned p

/-- When the last element leaves a port's orphan set, its orphan timer stops (R74). -/
def emptiedOrphans (p : Port) (s : State) : State :=
  if s.orphans p = [] then s.modAuth p fun a => { a with orphan := none } else s

/-- Set the hold of an element; a hold that was ORPHANED leaves its port's orphan set (R74). -/
def setHold (e : ElemId) (h : Hold) (s : State) : State :=
  let after := s.modElem e fun r => { r with hold := h }
  match (s.elem e).hold with
  | .orphaned p => emptiedOrphans p after
  | _ => after

/-- CLAIM (R67). -/
def ownClaim (p : Port) (f : Option Byte) (s : State) : State × Reply :=
  if s.cfg.startUp ≠ .run then refuse .mode s
  else
    match f with
    | none => refuse .form s
    | some b =>
      match s.elem? b with
      | none => refuse .unknown s
      | some (e, c) =>
        if !(s.elem e).enabled then refuse .disabled s
        else if !s.reaches p c then refuse .role s
        else
          match (s.elem e).hold with
          | .none => answer .ok [] (setHold e (.held p) s)
          | .held q => if q = p then answer .ok [] s else answer .held (Hold.held q).codes s
          | .orphaned q =>
            if q = p ∨ s.role p = .bridge then answer .ok [] (setHold e (.held p) s)
            else answer .held (Hold.orphaned q).codes s

/-- RELEASE (R68). -/
def ownRelease (p : Port) (f : Option Byte) (s : State) : State × Reply :=
  if s.cfg.startUp = .unconfigured then refuse .mode s
  else
    match f with
    | none => refuse .form s
    | some b =>
      match s.elem? b with
      | none => refuse .unknown s
      | some (e, _) =>
        if !(s.elem e).enabled then refuse .disabled s
        else if (s.elem e).hold = .held p then answer .ok [] (setHold e .none s)
        else refuse .notHeld s

/-- GRANT (R69). -/
def ownGrant (p : Port) (f : Option (Byte × Byte)) (s : State) : State × Reply :=
  if s.cfg.startUp ≠ .run then refuse .mode s
  else if s.role p ≠ .bridge then refuse .role s
  else
    match f with
    | none => refuse .form s
    | some (b, t) =>
      match s.elem? b with
      | none => refuse .unknown s
      | some (e, c) =>
        match index? 4 t with
        | none => refuse .form s
        | some q =>
          if !(s.elem e).enabled then refuse .disabled s
          else if !(s.auth q).linkUp || !s.reaches q c then refuse .condition s
          else answer .ok (s.elem e).hold.codes (setHold e (.held q) s)

/-- REVOKE (R70). -/
def ownRevoke (p : Port) (f : Option Byte) (s : State) : State × Reply :=
  if s.cfg.startUp = .unconfigured then refuse .mode s
  else if s.role p ≠ .bridge then refuse .role s
  else
    match f with
    | none => refuse .form s
    | some b =>
      match s.elem? b with
      | none => refuse .unknown s
      | some (e, _) =>
        if !(s.elem e).enabled then refuse .disabled s
        else answer .ok (s.elem e).hold.codes (setHold e .none s)

def execClaim (p : Port) (seq elem : Byte) (s : State) : Result := .next (request p seq 0x20 (ownClaim p (some elem)) s)
def execRelease (p : Port) (seq elem : Byte) (s : State) : Result :=
  .next (request p seq 0x21 (ownRelease p (some elem)) s)
def execGrant (p : Port) (seq elem target : Byte) (s : State) : Result :=
  .next (request p seq 0x22 (ownGrant p (some (elem, target))) s)
def execRevoke (p : Port) (seq elem : Byte) (s : State) : Result :=
  .next (request p seq 0x23 (ownRevoke p (some elem)) s)

/-- The ETU is told that port p has become LOST: its holds are orphaned, and its orphan timer starts where there are
any (R72). -/
def portLostReport (p : Port) (s : State) : State :=
  let s := s.mapElems fun r => if r.hold = .held p then { r with hold := .orphaned p } else r
  s.modAuth p fun a => { a with linkUp := false, orphan := if s.orphans p = [] then none else some tOrp }

/-- The ETU is told that port p has become UP: holds still orphaned return while the timer runs (R73). -/
def portUpReport (p : Port) (s : State) : State :=
  let restored :=
    if (s.auth p).orphan.isSome then
      s.mapElems fun r => if r.hold = .orphaned p then { r with hold := .held p } else r
    else s
  restored.modAuth p fun a => { a with linkUp := true, orphan := none }

/-- The holds still ORPHANED(p) become NONE, with HOLDS_DROPPED (R75). -/
def dropOrphans (p : Port) (s : State) : State :=
  let dropped := s.mapElems fun r => if r.hold = .orphaned p then { r with hold := .none } else r
  (dropped.modAuth p fun a => { a with orphan := none }).raise .holdsDropped (byteOf p.val)
    (wordOf (s.orphans p).length)

/-- ORPHAN_TIMEOUT: port p's orphan timer reaches tORP (R75). -/
def execOrphanTimeout (p : Port) (s : State) : Result :=
  .next <| if (s.auth p).orphan = some 0 then dropOrphans p s else s

end Sys2Proof.Machine
end

