-- ==== Sys2Proof/Machine/Operations.lean ====
section
/-!
DEFINITION. Operations in the Element Table Unit: outputs (R28), stage entry and stage end (R27, R29, R30), suspension and
the return to ACTIVE (R41, R42), endings (R46, R113), and the creation of zone closures (R108, R109). A powered
element's slot is released by the Drive Power Manager's part (Power.lean), which the callers hand the release to.
-/

namespace Sys2Proof.Machine

/-! ### Outputs (R28) -/

def Stage.drivesOpen (st : Stage) : Bool := st = .travelOpen || st = .reverse
def Stage.drivesClose (st : Stage) : Bool := st = .travelClose
def Stage.locks (st : Stage) : Bool := st = .lock
def Stage.unlocks (st : Stage) : Bool := st = .unlock
def Stage.warns (st : Stage) : Bool :=
  st = .unlock || st = .travelOpen || st = .travelClose || st = .lock || st = .warn

/-- The stage whose outputs are asserted: the operation's in ACTIVE, none otherwise (R28). -/
def ElemRun.drivingStage (r : ElemRun) : Stage :=
  match r.activity, r.op with
  | .active, some o => o.stage
  | _, _ => .none

/-- Write the element's bound outputs as its activity and stage require (R17, R28). No rule keeps two outputs of one element
from one channel (R3, R194), nor says which of the two values the channel then takes: the order of the writes, drive-open,
drive-close, lock, unlock, warning, in which the last one stands, is the model's choice (log 39). -/
def writeOutputs (e : ElemId) (s : State) : State :=
  match s.elemCfg e with
  | none => s
  | some c =>
    let st := (s.elem e).drivingStage
    ((((s.drive c.driveOpen st.drivesOpen).drive c.driveClose st.drivesClose).drive c.lock st.locks).drive c.unlock
      st.unlocks).drive c.warning st.warns

/-! ### Stages (R27, R29) -/

/-- The stage's end condition on position and lock state (R28). -/
def stageDone (st : Stage) (r : ElemRun) : Bool :=
  match st with
  | .unlock => r.lock = .unlocked
  | .travelOpen => r.position = .opened
  | .travelClose => r.position = .closed
  | .lock => r.lock = .locked
  | .reverse => r.position = .opened
  | _ => false

/-- The stage after a stage that ends, none after the last (R27, R37, R38). -/
def nextStage (c : ElementCfg) (k : OpKind) (st : Stage) : Option Stage :=
  match st with
  | .prep =>
    match k with
    | .closing => some .travelClose
    | _ => if lockBound c then some .unlock else some .travelOpen
  | .unlock => some .travelOpen
  | .travelOpen => if k = .egress then some .holdOpen else none
  | .travelClose => if lockBound c && !isDoor c then some .lock else none
  | .warn => some .travelClose
  | .reverse => some .retryPause
  | .retryPause => some .warn
  | .holdOpen => some .warn
  | .lock => none
  | .none => none

/-- An operation needs consent (R39): a powered element with consent-required set. -/
def needsConsent (c : ElementCfg) : Bool := c.consent && !isDoor c

/-- Stage entry on the element record, steps 1 and 2 of R29: the consent window opens at the entry that follows PREP
(R39). -/
def ElemRun.enter (c : ElementCfg) (st : Stage) (r : ElemRun) : ElemRun :=
  match r.op with
  | none => r
  | some o =>
    { r with
      op := some { o with
        stage := st
        stageTime := 0
        window := if needsConsent c && o.stage = .prep then some tCw else o.window }
      pend := { r.pend with stage := r.pend.stage || o.stageReport && st ≠ .prep } }

/-- Enter a stage and write its outputs (R28, R29). -/
def enterStage (e : ElemId) (c : ElementCfg) (st : Stage) (s : State) : State :=
  writeOutputs e (s.modElem e (ElemRun.enter c st))

/-! ### Closures (R108, R109) -/

/-- The operation record of a zone closure, with its report class (R108, step 2). -/
def OpRec.closure (cls : Nat) : OpRec where
  kind := .closing
  requester := none
  tag := 0
  cls := cls
  stageReport := false
  stage := .none
  reasons := { consent := false, interlock := false, path := false }
  attempts := 0
  motion := 0
  stageTime := 0
  slot := none
  code := .none
  mark := true
  window := none
  suspTimer := none

/-- The closure class of the lowest alarmed boundary zone (R108). -/
def State.closureClass (s : State) (c : ElementCfg) : Nat :=
  match (s.lowestAlarmed c).bind s.zoneCfg with
  | some z => z.cls
  | none => 0

/-- Create a zone closure on a door (R108). -/
def createClosure (e : ElemId) (c : ElementCfg) (s : State) : State :=
  enterStage e c .warn <| s.modElem e fun r =>
    let r := if r.activity = .ended then r.dropEnded else r
    { r with activity := .active, op := some (OpRec.closure (s.closureClass c)) }

/-- The test of R109: a door that owes a closure and is able to take one has it created. -/
def closureTest (e : ElemId) (c : ElementCfg) (s : State) : State :=
  if isDoor c && (s.elem e).closureOwed && (s.elem e).canClose then createClosure e c s else s

def setOwed (e : ElemId) (b : Bool) (s : State) : State := s.modElem e fun r => { r with closureOwed := b }

/-- DOOR_UNAVAILABLE, with the lowest alarmed boundary zone (R112). -/
def doorUnavailable (e : ElemId) (c : ElementCfg) (s : State) : State :=
  match s.lowestAlarmed c with
  | some z => s.raise .doorUnavailable (byteOf e.val) (wordOf (z.val + 1))
  | none => s.raise .doorUnavailable (byteOf e.val) 0

/-! ### Endings (R46, R113) -/

/-- What an ending leaves of an operation record: its code, no slot, and its timers stopped (R46). The reasons stand as
they were (log 9). -/
def OpRec.finish (code : Completion) (o : OpRec) : OpRec :=
  { o with code := code, slot := none, window := none, suspTimer := none }

/-- The last completion fields that an ending writes (R46, step 5). -/
def OpRec.completion (code : Completion) (o : OpRec) : LastCompletion where
  kind := some o.kind
  requester := match o.requester with | some p => .port p | none => .internal
  tag := o.tag
  cls := o.cls
  stage := o.stage
  code := code
  motion := o.motion

/-- The effects of an ending on the element record (R46, steps 2 to 6). -/
def ElemRun.finish (code : Completion) (r : ElemRun) : ElemRun :=
  match r.op with
  | none => r
  | some o =>
    { r with
      op := some (o.finish code)
      activity := .ended
      pend := { r.pend with ended := true }
      last := o.completion code }

/-- An ending without its door consequences (R46). -/
def endRecord (e : ElemId) (code : Completion) (s : State) : State :=
  writeOutputs e (s.modElem e (ElemRun.finish code))

/-- The codes of a marked ending that raise CLOSURE_FAILED (R113). -/
def Completion.failsClosure (code : Completion) : Bool :=
  code = .obstructed || code = .timeout || code = .sensorConflict || code = .wrongLimit

/-- The codes of a marked ending that clear the closure-owed flag (R113). -/
def Completion.clearsOwed (code : Completion) : Bool := code = .done || code = .halted || code.failsClosure

/-- What the ending of a marked operation does to the flag (R113). -/
def markedEnding (e : ElemId) (code : Completion) (s : State) : State :=
  let s := if code.clearsOwed then setOwed e false s else s
  if code.failsClosure then s.raise .closureFailed (byteOf e.val) (code.code.setWidth 16) else s

/-- The operation of an element carries the zone-required mark. -/
def State.marked (s : State) (e : ElemId) : Bool :=
  match (s.elem e).op with
  | some o => o.mark
  | none => false

/-- Every ending of an operation (R46), with what it does to a door's closure (R113, R109). -/
def endOp (e : ElemId) (code : Completion) (s : State) : State :=
  let ended := endRecord e code s
  match s.elemCfg e with
  | some c => closureTest e c (if s.marked e then markedEnding e code ended else ended)
  | none => ended

/-! ### Stage ends and the obstruction loop (R29, R30, R36) -/

/-- Stages that one event can enter in a chain: UNLOCK, TRAVEL_OPEN and the end, or TRAVEL_CLOSE, REVERSE and
RETRY_PAUSE (R27, R37). -/
def stageChain : Nat := 4

/-- From the stage the element stands in: a stage whose end condition holds ends, and a door in TRAVEL_CLOSE reads its
obstruction input (R29 steps 3 and 4, R36). -/
def settleStage : Nat → ElemId → State → State
  | 0, _, s => s
  | n + 1, e, s =>
    match s.elemCfg e, (s.elem e).op with
    | some c, some o =>
      if stageDone o.stage (s.elem e) then
        match nextStage c o.kind o.stage with
        | some st => settleStage n e (enterStage e c st s)
        | none => endOp e .done s
      else if o.stage = .travelClose ∧ isDoor c ∧ s.obstructed c then
        let s := s.modOp e fun o => { o with attempts := o.attempts + 1 }
        if o.attempts + 1 < 3 then settleStage n e (enterStage e c .reverse s) else endOp e .obstructed s
      else s
    | _, _ => s

/-- A stage ends by its own rule, a timer or a grant: the next stage is entered (R27, R30). -/
def advance (e : ElemId) (s : State) : State :=
  match s.elemCfg e, (s.elem e).op with
  | some c, some o =>
    match nextStage c o.kind o.stage with
    | some st => settleStage stageChain e (enterStage e c st s)
    | none => endOp e .done s
  | _, _ => s

/-- The duration of a timed stage, in ticks (R28). -/
def State.stageDuration (s : State) (c : ElementCfg) : Stage → Option Nat
  | .warn => some (seconds c.tWrn)
  | .reverse => some tRev
  | .retryPause => some tRty
  | .holdOpen => some (seconds s.cfg.loaded.part.tEgr)
  | _ => none

/-- The limit of a driven stage, in ticks (R31). -/
def stageLimit (c : ElementCfg) : Stage → Option Nat
  | .unlock => some (seconds c.tLck)
  | .lock => some (seconds c.tLck)
  | .travelOpen => some (seconds c.tTrv)
  | .travelClose => some (seconds c.tTrv)
  | _ => none

/-! ### Suspension (R41, R42) -/

def OpRec.lapse (o : OpRec) : OpRec := { o with reasons := { o.reasons with consent := true }, window := none }
def OpRec.interlocked (o : OpRec) : OpRec := { o with reasons := { o.reasons with interlock := true } }
def OpRec.revoked (o : OpRec) : OpRec := { o with reasons := { o.reasons with path := true }, slot := none }

/-- A reason is added: an ACTIVE operation becomes SUSPENDED and its suspension timer starts (R41). -/
def ElemRun.suspend (add : OpRec → OpRec) (r : ElemRun) : ElemRun :=
  match r.activity, r.op with
  | .active, some o => { r with activity := .suspended, op := some { add o with suspTimer := some tSus } }
  | .suspended, some o => { r with op := some (add o) }
  | _, _ => r

def suspend (e : ElemId) (add : OpRec → OpRec) (s : State) : State :=
  writeOutputs e (s.modElem e (ElemRun.suspend add))

/-- The return to ACTIVE when the last reason has left the set (R42). -/
def ElemRun.reactivate (r : ElemRun) : ElemRun :=
  match r.op with
  | some o => { r with activity := .active, op := some { o with suspTimer := none } }
  | none => r

def returnToActive (e : ElemId) (s : State) : State :=
  match (s.elem e).activity, (s.elem e).op with
  | .suspended, some o =>
    if o.reasons.isEmpty then settleStage stageChain e (writeOutputs e (s.modElem e ElemRun.reactivate)) else s
  | _, _ => s

/-- The interlock test of an operation whose applicable entries are read at once (R54, R60): an unsatisfied one
suspends. -/
def interlockTest (e : ElemId) (s : State) : State :=
  if (s.opFailingEntry e).isSome then suspend e OpRec.interlocked s else s

end Sys2Proof.Machine
end

