-- ==== Sys2Proof/Machine/Power.lean ====
section
/-!
DEFINITION. The Drive Power Manager: candidates (R86), slot requests (R87), start checks (R88), walks (R90), grants and
releases (R91), unit faults with their revocations and queue check (R85, R92), and PU-CLEAR, PU-VIEW and the unit
timers. A hand-over between the DPM and the ETU is taken in the event in which it is made (R86): what one hand-over
brings about is a list of tasks, taken depth first.
-/

namespace Sys2Proof.Machine

/-! ### Units, candidates and capacity -/

/-- Slots used: the sum of the holders' weights (R79). -/
def UnitRun.used (r : UnitRun) : Nat := (r.holders.map Holder.weight).sum

/-- Free capacity (R87). -/
def UnitRun.free (r : UnitRun) : Nat := slotCapacity - r.used

/-- READY or SERVING (R87, R90). -/
def UnitRun.running (r : UnitRun) : Bool := r.state = .ready || r.state = .serving

/-- READY or SERVING with free capacity. -/
def UnitRun.open (r : UnitRun) : Bool := r.running && 0 < r.free

/-- A unit is a candidate of a path set: it lies in it and is not in FAULT (R86). -/
def State.candidate (s : State) (path : PathMask) (u : UnitId) : Bool :=
  inPath path u && (s.unit u).state ≠ .fault

/-- An element's path set: installed and logical path masks together (R86). -/
def State.pathSet (s : State) (e : ElemId) (c : ElementCfg) : PathMask := c.installed &&& (s.elem e).mask

/-- The units in the order of an immediate grant: SERVING before READY, lowest number first (R87, step 2). -/
def State.grantOrder (s : State) : List UnitId :=
  units.filter (fun u => (s.unit u).state = .serving) ++ units.filter (fun u => (s.unit u).state = .ready)

/-- Write a unit's start output (R80). -/
def driveStart (u : UnitId) (b : Bool) (s : State) : State := s.drive (s.unitCfg u).startOut b

/-! ### Grants and revocations on the DPM's side -/

/-- A grant in the unit's record (R91). -/
def UnitRun.grant (h : Holder) (r : UnitRun) : UnitRun :=
  { r with holders := r.holders ++ [h], state := .serving, idleTimer := none }

def Waiter.holder (w : Waiter) : Holder :=
  { elem := w.elem, weight := w.weight, path := w.path, multipath := w.multipath }

def Holder.waiter (k : WaitKind) (h : Holder) : Waiter :=
  { elem := h.elem, weight := h.weight, path := h.path, multipath := h.multipath, kind := k }

/-- An element leaves the slot-wait queue; the others keep their order (R89). -/
def leaveQueue (e : ElemId) (s : State) : State := s.setQueue (s.dpm.queue.filter fun w => w.elem ≠ e)

/-- Grant a slot: the holder joins, and the element leaves the queue if it waited (R91). -/
def grantSlot (u : UnitId) (h : Holder) (s : State) : State := leaveQueue h.elem (s.modUnit u (UnitRun.grant h))

/-- The unit on which the DPM holds a slot for an element. -/
def State.slotOf (s : State) (e : ElemId) : Option UnitId :=
  units.find? fun u => (s.unit u).holders.any fun h => h.elem = e

/-- An element stands in the slot-wait queue. -/
def State.waits (s : State) (e : ElemId) : Option Waiter := s.dpm.queue.find? fun w => w.elem = e

/-- The unit leaves STARTING for READY, its start timer stopped (R82). -/
def UnitRun.toReady (r : UnitRun) : UnitRun :=
  if r.state = .starting then { r with state := .ready, startTimer := none } else r

/-- READY with the idle timer started, where a walk has left no slot in use (R82, R91). -/
def UnitRun.settle (tPid : Nat) (r : UnitRun) : UnitRun :=
  if r.running ∧ r.holders = [] then
    { r with state := .ready, idleTimer := if r.idleTimer.isSome then r.idleTimer else some tPid }
  else r

/-- The unit starts (R81). -/
def UnitRun.start (r : UnitRun) : UnitRun := { r with state := .starting, startTimer := some tPst }

/-- The unit enters FAULT: its timers stop, its holders go (R85). -/
def UnitRun.fail (reason : FaultReason) (r : UnitRun) : UnitRun :=
  { r with state := .fault, reason := reason, startTimer := none, idleTimer := none, holders := [] }

/-- The unit enters OFF from FAULT (R93). -/
def UnitRun.cleared (r : UnitRun) : UnitRun := { r with state := .off, reason := .none }

/-! ### Tasks -/

/-- What one hand-over or unit event brings about. -/
inductive Task where
  | release (e : ElemId)
  | walk (u : UnitId)
  | settle (u : UnitId)
  | arrive (e : ElemId) (u : UnitId)
  | joinWalk (e : ElemId) (us : List UnitId)
  | startCheck (e : ElemId)
  | ready (u : UnitId)
  | faultEvent (u : UnitId)
  deriving DecidableEq, Repr

/-- A release of a slot or of a place in the queue (R91). -/
def taskRelease (e : ElemId) (s : State) : State × List Task :=
  match s.slotOf e with
  | some u =>
    (s.modUnit u fun r => { r with holders := r.holders.filter fun h => h.elem ≠ e }, [.walk u, .settle u])
  | none =>
    match s.waits e with
    | some w =>
      (leaveQueue e s, (units.filter fun u => s.candidate w.path u && (s.unit u).open).map Task.walk)
    | none => (s, [])

/-- One step of a walk: the first waiter that names the unit is granted where it fits, and the walk goes on; where it
does not fit the walk stops (R90). -/
def taskWalk (u : UnitId) (s : State) : State × List Task :=
  if (s.unit u).open then
    match s.dpm.queue.find? fun w => s.candidate w.path u with
    | some w =>
      if w.weight ≤ (s.unit u).free then (grantSlot u w.holder s, [.arrive w.elem u, .walk u]) else (s, [])
    | none => (s, [])
  else (s, [])

/-- The ETU's release of a slot that its ending left, in the event of the ending (R46). -/
def releaseEnded (e : ElemId) (s : State) : List Task := if (s.elem e).activity = .ended then [.release e] else []

/-- A grant reaches a START_PENDING element: the slot is recorded and the operation becomes ACTIVE (R44). -/
def ElemRun.granted (u : UnitId) (r : ElemRun) : ElemRun :=
  { r with activity := .active, op := r.op.map fun o => { o with slot := some u } }

/-- A grant clears PATH (R44). -/
def OpRec.regranted (u : UnitId) (o : OpRec) : OpRec :=
  { o with slot := some u, reasons := { o.reasons with path := false } }

/-- A grant reaches the ETU (R44, R54). -/
def taskArrive (e : ElemId) (u : UnitId) (s : State) : State × List Task :=
  match (s.elem e).activity, (s.elem e).op with
  | .startPending, some _ =>
    let s := advance e (s.modElem e (ElemRun.granted u))
    let s := if (s.elem e).activity = .active then interlockTest e s else s
    (s, releaseEnded e s)
  | .suspended, some o =>
    if o.reasons.path then
      let s := returnToActive e (s.modOp e (OpRec.regranted u))
      (s, releaseEnded e s)
    else (s, [.release e])
  | _, _ => (s, [.release e])

/-- The join walk: the element's candidates in order, until it has been granted (R87, step 3). -/
def taskJoinWalk (e : ElemId) (us : List UnitId) (s : State) : State × List Task :=
  match us with
  | [] => (s, [])
  | u :: us => if (s.waits e).isSome then (s, [.walk u, .joinWalk e us]) else (s, [])

/-- The start check for one waiter (R88); a unit started passes on to READY at once where its running input already
reads true (R81). -/
def taskStartCheck (e : ElemId) (s : State) : State × List Task :=
  match s.waits e with
  | some w =>
    if units.any fun u => s.candidate w.path u && (s.unit u).state = .starting then (s, [])
    else
      match units.find? fun u => s.candidate w.path u && (s.unit u).state = .off with
      | some u =>
        let s := driveStart u true (s.modUnit u UnitRun.start)
        (s, if s.input (s.unitCfg u).running = some true then [.ready u] else [])
      | none => (s, [])
  | none => (s, [])

/-- tPID of the loaded configuration, in ticks (R83). -/
def State.tPid (s : State) : Nat := seconds s.cfg.loaded.part.tPid

/-- One task. -/
def runTask (t : Task) (s : State) : State × List Task :=
  match t with
  | .release e => taskRelease e s
  | .walk u => taskWalk u s
  | .settle u => (s.modUnit u (UnitRun.settle s.tPid), [])
  | .arrive e u => taskArrive e u s
  | .joinWalk e us => taskJoinWalk e us s
  | .startCheck e => taskStartCheck e s
  | .ready u => (s.modUnit u UnitRun.toReady, [.walk u, .settle u])
  | .faultEvent u => (s.raise .puFault (byteOf u.val) ((s.unit u).reason.code.setWidth 16), [])

/-- The tasks, depth first, up to a number of steps that no chain of the part reaches (log 23). -/
def runTasks : Nat → List Task → State → State
  | 0, _, s => s
  | _ + 1, [], s => s
  | n + 1, t :: ts, s =>
    let r := runTask t s
    runTasks n (r.2 ++ ts) r.1

/-- More steps than any one event's chain of grants, releases and start checks takes (log 23). -/
def taskBound : Nat := 1024

def dpm (ts : List Task) (s : State) : State := runTasks taskBound ts s

/-- An operation ends and its slot or place is released (R46). -/
def endAndRelease (e : ElemId) (code : Completion) (s : State) : State := dpm [.release e] (endOp e code s)

/-- After a return to ACTIVE or a stage end: an operation that it ended releases its slot (R46). -/
def handRelease (e : ElemId) (s : State) : State := dpm (releaseEnded e s) s

/-! ### Slot requests (R87) -/

/-- A waiter shares a candidate with a path set (R87, step 2). -/
def State.shares (s : State) (path : PathMask) (w : Waiter) : Bool :=
  units.any fun u => s.candidate path u && s.candidate w.path u

/-- The DPM takes a slot request (R87). -/
def slotRequest (w : Waiter) (s : State) : State :=
  let fits := s.grantOrder.find? fun u => s.candidate w.path u && w.weight ≤ (s.unit u).free
  let joined := s.setQueue (s.dpm.queue ++ [w])
  if s.dpm.queue.any (s.shares w.path) then
    dpm [.joinWalk w.elem (s.grantOrder.filter fun u => s.candidate w.path u && (s.unit u).open), .startCheck w.elem]
      joined
  else
    match fits with
    | some u => dpm [.arrive w.elem u] (grantSlot u w.holder s)
    | none => dpm [.startCheck w.elem] joined

/-! ### The batch of STOP-ALL (R91) -/

/-- The releases of one STOP-ALL, as one event. -/
def batchRelease (es : List ElemId) (s : State) : State :=
  let gone := s.dpm.queue.filter fun w => es.contains w.elem
  let freed := units.filter fun u => (s.unit u).holders.any fun h => es.contains h.elem
  let s := s.setQueue (s.dpm.queue.filter fun w => !es.contains w.elem)
  let s := freed.foldl
    (fun s u => s.modUnit u fun r => { r with holders := r.holders.filter fun h => !es.contains h.elem }) s
  let walked := units.filter fun u =>
    freed.contains u || (gone.any fun w => s.candidate w.path u) && (s.unit u).open
  dpm (walked.flatMap fun u => [.walk u, .settle u]) s

/-! ### Faults (R84, R85, R92) -/

/-- A revocation reaches the ETU; it is dropped where the element holds no slot on the unit (R44, R92). -/
def revoke (u : UnitId) (h : Holder) (s : State) : State :=
  match (s.elem h.elem).op with
  | some o =>
    if o.slot = some u then
      if h.multipath then suspend h.elem OpRec.revoked s else endOp h.elem .pathFailed s
    else s
  | none => s

/-- A waiter left without a candidate leaves the queue and its operation ends PATH_FAILED (R92, step 1). -/
def failPath (s : State) (w : Waiter) : State :=
  if units.any (s.candidate w.path) then s else leaveQueue w.elem (endOp w.elem .pathFailed s)

/-- The queue check after a fault (R92). -/
def queueCheck (s : State) (after : List Task) : State :=
  let s := s.dpm.queue.foldl failPath s
  dpm (s.dpm.queue.map (fun w => .startCheck w.elem) ++ units.map .walk ++ after) s

/-- A unit enters FAULT (R85). -/
def faultUnit (u : UnitId) (reason : FaultReason) (s : State) : State :=
  let held := (s.unit u).holders
  let s := driveStart u false (s.modUnit u (UnitRun.fail reason))
  let s := held.foldl (fun s h => revoke u h s) s
  let s := s.setQueue ((held.filter Holder.multipath).map (Holder.waiter .path) ++ s.dpm.queue)
  queueCheck s [.faultEvent u]

/-! ### The DPM's part of a field notification (R84, R187) -/

/-- A unit has a channel on a node (R84). -/
def onNode (n : NodeId) (c : Option Chan) : Bool :=
  match c with
  | some c => c.node = n
  | none => false

/-- The channels of a unit. -/
def unitChans (c : UnitCfg) : List (Option Chan) := [c.startOut, c.running, c.fault]

/-- The cause of FAULT that a notification brings to a unit (R84, note 2). -/
def faultCause (n : NodeId) (was : Option Word16) (lost : Bool) (s : State) (u : UnitId) : Option FaultReason :=
  let c := s.unitCfg u
  if (s.unit u).state = .fault then none
  else if lost && (unitChans c).any (onNode n) then some .link
  else if s.input c.fault = some true ∧ s.inputBefore n was c.fault ≠ some true then some .faultInput
  else if (s.unit u).running ∧ s.input c.running = some false ∧ s.inputBefore n was c.running ≠ some false then
    some .lostPressure
  else none

/-- A notification at one unit: its FAULT (R84), or its READY (R82), with all that follows from either. -/
def notifyUnit (n : NodeId) (was : Option Word16) (lost : Bool) (s : State) (u : UnitId) : State :=
  let c := s.unitCfg u
  match faultCause n was lost s u with
  | some reason => faultUnit u reason s
  | none =>
    if (s.unit u).state = .starting ∧ s.input c.running = some true ∧ s.inputBefore n was c.running ≠ some true then
      dpm [.ready u] s
    else s

/-- The DPM takes a notification. The units that it faults are taken in ascending number (R84, note 3; R187). No rule orders
a unit that it makes READY (R82) against those, or against another such unit: one ascending pass over all the units, READY
and FAULT interleaved, is the model's choice (log 35). -/
def dpmNotify (n : NodeId) (was : Option Word16) (lost : Bool) (s : State) : State :=
  (units.filter fun u => unitInstalled (s.unitCfg u)).foldl (notifyUnit n was lost) s

/-! ### Requests and timers -/

/-- Every node that carries a channel of the unit is ONLINE (R93). -/
def State.unitOnline (s : State) (u : UnitId) : Bool :=
  (unitChans (s.unitCfg u)).all fun c =>
    match c with
    | some c => (s.node c.node).state = .online
    | none => true

/-- In RUN, the start check for every waiter in queue order (R88, R93). -/
def startChecks (s : State) : State :=
  if s.cfg.startUp = .run then dpm (s.dpm.queue.map fun w => .startCheck w.elem) s else s

/-- PU-CLEAR (R93). -/
def ownPuClear (p : Port) (f : Option Byte) (s : State) : State × Reply :=
  if s.cfg.startUp = .unconfigured then refuse .mode s
  else if s.role p ≠ .bridge then refuse .role s
  else
    match f with
    | none => refuse .form s
    | some b =>
      match s.unit? b with
      | none => refuse .unknown s
      | some u =>
        if (s.unit u).state ≠ .fault then answer .ok [(s.unit u).state.code] s
        else if !s.unitOnline u || s.input (s.unitCfg u).fault = some true then
          answer .condition [(s.unit u).reason.code] s
        else
          let s := startChecks (s.modUnit u UnitRun.cleared)
          answer .ok [(s.unit u).state.code] s

/-- Ticks left on a timer, 0 where it is stopped. -/
def ticksLeft : Option Nat → Nat
  | some n => n
  | none => 0

/-- One unit of PU-VIEW, 10 bytes (R94; spec/09, section 9.12). -/
def State.unitView (s : State) (u : UnitId) : List Byte :=
  let r := s.unit u
  let holder : Nat → List Byte := fun i =>
    match r.holders[i]? with
    | some h => [byteOf h.elem.val, byteOf h.weight]
    | none => [0xFF, 0]
  let timer := match r.state with | .starting => ticksLeft r.startTimer | .ready => ticksLeft r.idleTimer | _ => 0
  [flagBit 0 (unitInstalled (s.unitCfg u)), r.state.code, r.reason.code, byteOf r.used] ++ holder 0 ++ holder 1 ++
    bytes16 (wordOf timer)

/-- PU-VIEW (R94). -/
def ownPuView (f : Option Byte) (s : State) : State × Reply :=
  if s.cfg.startUp = .unconfigured then refuse .mode s
  else
    match f with
    | none => refuse .form s
    | some pos =>
      let given := (s.dpm.queue.drop pos.toNat).take 4
      answer .ok
        (units.flatMap s.unitView ++ [byteOf s.dpm.queue.length, byteOf given.length] ++
          given.flatMap fun w => [byteOf w.elem.val, byteOf w.weight, w.kind.code]) s

def execPuClear (p : Port) (seq unit : Byte) (s : State) : Result := .next (request p seq 0x30 (ownPuClear p (some unit)) s)
def execPuView (p : Port) (seq pos : Byte) (s : State) : Result := .next (request p seq 0x31 (ownPuView (some pos)) s)

/-- START_TIMER_EXPIRY: tPST in STARTING (R82). -/
def execStartTimerExpiry (u : UnitId) (s : State) : Result :=
  .next <|
    if (s.unit u).state = .starting ∧ (s.unit u).startTimer = some 0 then
      finishReports s (faultUnit u .startFailed s)
    else s

/-- IDLE_TIMER_EXPIRY: tPID in READY (R83). -/
def execIdleTimerExpiry (u : UnitId) (s : State) : Result :=
  .next <|
    if (s.unit u).state = .ready ∧ (s.unit u).idleTimer = some 0 then
      driveStart u false (s.modUnit u fun r => { r with state := .off, idleTimer := none })
    else s

end Sys2Proof.Machine
end

