-- ==== Sys2Proof/Machine/Elements.lean ====
section
/-!
DEFINITION. Deck elements: the status record (R149), VIEW and MODIFY (R13 to R15), and the ETU's treatment of an
input-change notification (R7): decode, then each element's turn with its alert, its own operation, its dependents, its
owed closure and its position-entry notice.
-/

namespace Sys2Proof.Machine

/-! ### The status record (R149; spec/09, section 9.12) -/

/-- The requester byte of the last completion: a port, 0xFF INTERNAL, 0xFE none. -/
def LastRequester.byte : LastRequester → Byte
  | .none => 0xFE
  | .internal => 0xFF
  | .port p => byteOf p.val

/-- A unit, or 0xFF for none. -/
def unitByte : Option UnitId → Byte
  | some u => byteOf u.val
  | none => 0xFF

/-- Bytes 10 to 25: the operation part. -/
def opBytes : Option OpRec → List Byte
  | some o =>
    [opKindCode (some o.kind), portByte 0xFF o.requester] ++ bytes32 o.tag ++
      [byteOf o.cls, o.stage.code, o.reasons.code, byteOf o.attempts] ++ bytes32 o.motion ++
      [unitByte o.slot, o.code.code]
  | none => List.replicate 14 0 ++ [0xFF, 0]

/-- Bytes 26 to 38: the last completion part. -/
def LastCompletion.bytes (l : LastCompletion) : List Byte :=
  [opKindCode l.kind, l.requester.byte] ++ bytes32 l.tag ++ [byteOf l.cls, l.stage.code, l.code.code] ++ bytes32 l.motion

/-- Byte 2: the flags of the record. -/
def ElemRun.flagByte (c : ElementCfg) (r : ElemRun) : Byte :=
  flagBit 0 r.enabled ||| flagBit 1 r.overrun ||| flagBit 2 (isDoor c && r.closureOwed) ||| flagBit 3 r.op.isSome |||
    flagBit 4 (r.op.any OpRec.mark) ||| flagBit 5 (r.op.any OpRec.stageReport)

/-- The status record, 39 bytes. -/
def statusRecord (e : ElemId) (c : ElementCfg) (r : ElemRun) : List Byte :=
  [byteOf e.val, elementKindCode c.kind, r.flagByte c, r.pend.code, r.activity.code, positionCode r.position,
    r.lock.code] ++ r.hold.codes ++ [r.alertReason.code] ++ opBytes r.op ++ r.last.bytes

/-- The element settings that VIEW adds, 4 bytes. -/
def settingsBytes (r : ElemRun) : List Byte :=
  [flagBit 0 r.enabled, r.mask.setWidth 8, byteOf r.cls, flagBit 0 r.multipath]

/-- VIEW (R15). -/
def ownView (f : Option Byte) (s : State) : State × Reply :=
  if s.cfg.startUp = .unconfigured then refuse .mode s
  else
    match f with
    | none => refuse .form s
    | some b =>
      match s.elem? b with
      | none => refuse .unknown s
      | some (e, c) => answer .ok (statusRecord e c (s.elem e) ++ settingsBytes (s.elem e)) s

def execView (p : Port) (seq elem : Byte) (s : State) : Result := .next (request p seq 0x10 (ownView (some elem)) s)

/-! ### MODIFY (R13, R14) -/

/-- A path mask as a byte gives it: PUn in bit n; the other bits are not read (log 19). -/
def pathMask (b : Byte) : PathMask := b.extractLsb' 0 4

/-- A flag in bit 0 of a byte; the other bits are not read (log 19). -/
def bit0 (b : Byte) : Bool := b.getLsbD 0

/-- MODIFY, check 4 (R13). -/
def modifyInForm (c : ElementCfg) (f : ModifyFields) : Bool :=
  decide (f.cls.toNat ≤ 7) && pathMask f.mask &&& ~~~c.installed = 0 && (isDoor c || pathMask f.mask ≠ 0) &&
    !(isDoor c && bit0 f.multipath)

/-- The four new values (R13). -/
def ElemRun.settings (f : ModifyFields) (r : ElemRun) : ElemRun :=
  { r with enabled := bit0 f.enabled, mask := pathMask f.mask, cls := f.cls.toNat, multipath := bit0 f.multipath }

/-- A MODIFY that disables: the hold becomes NONE, and a door that owes a closure is reported (R14, R112). -/
def disable (e : ElemId) (c : ElementCfg) (s : State) : State :=
  let s := setHold e .none s
  if isDoor c ∧ (s.elem e).closureOwed ∧ (s.elem e).position ≠ .unknown then doorUnavailable e c s else s

/-- What a taken MODIFY does (R13, R14). -/
def applyModify (e : ElemId) (c : ElementCfg) (f : ModifyFields) (s : State) : State :=
  let was := (s.elem e).enabled
  let s := s.modElem e (ElemRun.settings f)
  if was && !bit0 f.enabled then disable e c s
  else if !was && bit0 f.enabled then closureTest e c s
  else s

/-- MODIFY (R13). -/
def ownModify (p : Port) (f : Option ModifyFields) (s : State) : State × Reply :=
  if s.cfg.startUp ≠ .run then refuse .mode s
  else if s.role p ≠ .bridge then refuse .role s
  else
    match f with
    | none => refuse .form s
    | some f =>
      match s.elem? f.elem with
      | none => refuse .unknown s
      | some (e, c) =>
        if !modifyInForm c f then refuse .form s
        else if (s.elem e).activity.inProgress then refuse .busy s
        else if (s.elem e).activity = .ended ∨ (s.elem e).listed then refuse .statusPending s
        else answer .ok [] (applyModify e c f s)

def execModify (p : Port) (seq : Byte) (f : ModifyFields) (s : State) : Result :=
  .next (request p seq 0x11 (ownModify p (some f)) s)

/-! ### Decode (R5 to R8) -/

/-- The input bindings of an element (R3). -/
def elementInputs (c : ElementCfg) : List (Option Chan) :=
  [c.closedLimit, c.openLimit, c.locked, c.unlocked, c.obstruction]

/-- An element is bound to a channel that a notification changes (R7). -/
def State.touched (s : State) (n : NodeId) (was : Option Word16) (c : ElementCfg) : Bool :=
  (elementInputs c).any fun i => s.inputBefore n was i ≠ s.input i

/-- The decoded values, with the seen flags (R5, R6, R8). -/
def State.decoded (s : State) (c : ElementCfg) (r : ElemRun) : ElemRun :=
  { r with
    position := s.positionNow c
    lock := s.lockNow c
    posSeen := r.posSeen || s.positionNow c ≠ .unknown
    lockSeen := r.lockSeen || s.lockNow c ≠ .unknown }

/-- Decode every element bound to a changed channel (R7). -/
def decodeAll (n : NodeId) (was : Option Word16) (s : State) : State :=
  { s with
    etu := { s.etu with
      elems := Vector.ofFn fun e =>
        match s.elemCfg e with
        | some c => if s.touched n was c then s.decoded c (s.elem e) else s.elem e
        | none => s.elem e } }

/-! ### An element's turn (R7) -/

/-- What one notification changed at an element. -/
structure Change where
  old  : ElemRun
  elem : ElemId
  cfg  : ElementCfg
  obstructionRose : Bool
  deriving DecidableEq, Repr

def Change.position (ch : Change) (s : State) : Bool := ch.old.position ≠ (s.elem ch.elem).position
def Change.lock (ch : Change) (s : State) : Bool := ch.old.lock ≠ (s.elem ch.elem).lock
def Change.moved (ch : Change) (s : State) : Bool := ch.position s || ch.lock s

/-- ALERT on an enabled element in IDLE or ENDED (R9, R10). -/
def turnAlert (ch : Change) (s : State) : State :=
  let r := s.elem ch.elem
  if r.enabled ∧ (r.activity = .idle ∨ r.activity = .ended) then
    s.modElem ch.elem (ElemRun.alert (firstReason (positionAlert ch.old.posSeen ch.old.position r.position)
      (lockAlert ch.old.lockSeen ch.old.lock r.lock)))
  else s

/-- A door that has left CLOSED owes a closure where a boundary zone is alarmed (R111). -/
def leavesClosed (ch : Change) (s : State) : State :=
  let r := s.elem ch.elem
  if s.doorAlarmed ch.cfg then
    let s := setOwed ch.elem true s
    if r.enabled then closureTest ch.elem ch.cfg s
    else if !r.closureOwed && r.position ≠ .unknown then doorUnavailable ch.elem ch.cfg s
    else s
  else s

/-- The closure-owed flag of a door whose position changed, and the treatment by R111's table, which goes by the activity that
the door has at the change: an operation in progress is left to `turnOperation`, whose ending finds the flag as it is set
or cleared here (R109, R111, R115). -/
def turnClosure (ch : Change) (s : State) : State :=
  if isDoor ch.cfg ∧ ch.position s then
    if (s.elem ch.elem).position = .closed then setOwed ch.elem false s
    else if ch.old.position = .closed then leavesClosed ch s
    else if ch.old.position = .unknown ∨ ch.old.position = .conflict then closureTest ch.elem ch.cfg s
    else s
  else s

/-- The position or lock state has changed into UNKNOWN (R33). -/
def Change.lost (ch : Change) (s : State) : Bool :=
  (ch.position s && (s.elem ch.elem).position = .unknown) || (ch.lock s && (s.elem ch.elem).lock = .unknown)

/-- The position or lock state has changed into CONFLICT (R33). -/
def Change.conflict (ch : Change) (s : State) : Bool :=
  (ch.position s && (s.elem ch.elem).position = .conflict) || (ch.lock s && (s.elem ch.elem).lock = .conflict)

/-- The opposite limit in travel (R32). -/
def wrongLimit (st : Stage) (p : Position) : Bool :=
  st = .travelOpen && p = .closed || st = .travelClose && p = .opened

/-- What the element's own operation does, in the order of R33, with the activity and the stage as they stand at its turn. So an
operation that a slot freed at a lower-numbered element's turn has brought into a travel stage is ended WRONG_LIMIT by its own
change into the opposite limit; that R32 applies there, and not R34, is the model's choice (log 44). -/
def turnOperation (ch : Change) (s : State) : State :=
  let e := ch.elem
  match (s.elem e).op with
  | none => s
  | some o =>
    if (s.elem e).activity.inProgress then
      if ch.lost s then endAndRelease e .positionLost s
      else if ch.conflict s then endAndRelease e .sensorConflict s
      else if (s.elem e).activity = .active then
        if ch.position s && wrongLimit o.stage (s.elem e).position then endAndRelease e .wrongLimit s
        else if ch.moved s && stageDone o.stage (s.elem e) then handRelease e (settleStage stageChain e s)
        else if ch.obstructionRose && o.stage = .travelClose then handRelease e (settleStage stageChain e s)
        else s
      else s
    else s

/-- What a prerequisite's change does to one dependent (R55). -/
def dependentTest (pre : ElemId) (s : State) (d : ElemId) : State :=
  if (s.elem d).activity.inProgress ∧ s.dependsOn pre d ∧ (s.opFailingEntry d).isSome then
    if (s.elem d).activity = .startPending then endAndRelease d .interlockLost s
    else suspend d OpRec.interlocked s
  else s

/-- The dependents of a changed prerequisite, in ascending number (R55; log 25). -/
def turnDependents (ch : Change) (s : State) : State :=
  if ch.moved s then elements.foldl (dependentTest ch.elem) s else s

/-- The position-entry notice: not at the first decode, and not in SERVICE (R16). -/
def turnNotice (ch : Change) (s : State) : State :=
  if ch.position s ∧ ch.old.posSeen ∧ s.cfg.startUp = .run then
    positionEntry ch.elem ch.old.position (s.elem ch.elem).position s
  else s

/-- One element's turn (R7; log 8), with the closure-owed flag ahead of the operation (R111). -/
def turn (s : State) (ch : Change) : State :=
  turnNotice ch (turnDependents ch (turnOperation ch (turnClosure ch (turnAlert ch s))))

/-- The elements that a notification touches, with their values before it, in ascending number. -/
def changesOf (n : NodeId) (was : Option Word16) (s : State) : List Change :=
  elements.filterMap fun e =>
    (s.elemCfg e).bind fun c =>
      if s.touched n was c then
        some { old := s.elem e, elem := e, cfg := c
               obstructionRose := s.obstructed c && !obstructedBy c (s.inputBefore n was) }
      else none

/-- The ETU takes an input-change notification of node n, whose image was `was` (R7). -/
def etuNotify (n : NodeId) (was : Option Word16) (s : State) : State :=
  (changesOf n was s).foldl turn (decodeAll n was s)

end Sys2Proof.Machine
end

