-- ==== Sys2Proof/Machine/Field.lean ====
section
/-!
DEFINITION. The field link: the driver and the line (R181), the rotation and the exchange (R183, R184), answers and misses
(R185, R186), and the delivery of input changes to the ETU and the DPM (R187).
-/

namespace Sys2Proof.Machine

/-- The nodes in ascending number. -/
def nodeIds : List NodeId := List.finRange 8

/-- The nodes in the order of the rotation, from the one after the node last served (R183; log 32). -/
def State.rotation (s : State) : List NodeId :=
  match s.flc.served with
  | some n => nodeIds.filter (fun m => n < m) ++ nodeIds.filter fun m => m ≤ n
  | none => nodeIds

/-- The next configured node of the rotation (R183). -/
def State.nextNode (s : State) : Option NodeId := s.rotation.find? fun n => (s.node n).state ≠ .unused

/-- The configured address of a node, as a frame carries it (R181). -/
def State.address (s : State) (n : NodeId) : Byte :=
  match s.cfg.loaded.nodes[n] with
  | some c => byteOf c.address
  | none => 0

/-- KIND of an OUT frame (R181). -/
def kindOut : Byte := 0x01

/-- OUT goes to node n with its output image as it stands, and FDE is asserted from its first character (R181; R184,
step 1). -/
def startOut (n : NodeId) (s : State) : State :=
  { s with flc := { s.flc with
      served := some n
      driving := true
      ftxd := fieldChars (s.address n) kindOut (s.node n).outputs } }

/-- At the closing FLAG of the OUT the driver drops and the answer is awaited (R181; R184, step 2). -/
def finishOut (n : NodeId) (s : State) : State :=
  { s with flc := { s.flc with driving := false, exchange := some n } }

/-- FIELD_EXCHANGE_START: the OUT of the next node, from its first character to the start of tFAN at its closing FLAG, so
that FDE goes on and off within the row; the line is idle, so FDE is off when it starts (R181, R183, R184; log 31). -/
def execFieldExchangeStart (s : State) : Result :=
  .next <|
    match s.flc.exchange, s.nextNode with
    | none, some n => if s.flc.driving then s else finishOut n (startOut n s)
    | _, _ => s

/-- The exchange is over, and the answer timer is stopped (R184). -/
def endExchange (s : State) : State := { s with flc := { s.flc with exchange := none } }

/-- The ETU and the DPM take a notification, each as one event of its own, in the order given (R187, R189; log 6).
`was` is the node's input image before it. -/
def notify (order : BlockOrder) (n : NodeId) (was : Option Word16) (lost : Bool) (s : State) : State :=
  let etu := fun s => finishReports s (etuNotify n was s)
  let dpm := fun s => finishReports s (dpmNotify n was lost s)
  match order with
  | .etuFirst => dpm (etu s)
  | .dpmFirst => etu (dpm s)

/-- A valid answer (R185): NODE_BACK goes ahead of the notification. -/
def fieldAnswer (order : BlockOrder) (n : NodeId) (bits : Word16) (s : State) : State :=
  let before := s.node n
  let s := s.modNode n fun r => { r with state := .online, misses := 0, inputs := some bits }
  let s := if before.state = .lost then s.raise .nodeBack (byteOf n.val) 0 else s
  if before.inputs = some bits then s else notify order n before.inputs false s

/-- The node is lost (R186). -/
def nodeLost (order : BlockOrder) (n : NodeId) (s : State) : State :=
  let was := (s.node n).inputs
  let s := s.modNode n fun r => { r with state := .lost, misses := 3 }
  let s := s.raise .nodeLost (byteOf n.val) 0
  notify order n was true (s.modNode n fun r => { r with inputs := none })

/-- A miss (R186). -/
def fieldMiss (order : BlockOrder) (n : NodeId) (s : State) : State :=
  match (s.node n).state with
  | .online =>
    if (s.node n).misses < 2 then s.modNode n fun r => { r with misses := r.misses + 1 } else nodeLost order n s
  | _ => s

/-- The node whose answer is awaited: its exchange is in progress, and FDE is off, since the line is not read and the
answer timer not started while the part drives it (R181, R184). -/
def State.awaited (s : State) : Option NodeId := if s.flc.driving then none else s.flc.exchange

/-- FIELD_FRAME_RECEIVED: the first frame that closes while an answer is awaited ends the exchange (R184). -/
def execFieldFrameReceived (chars : List LineChar) (order : BlockOrder) (s : State) : Result :=
  .next <|
    match s.awaited with
    | none => s
    | some n =>
      match receiveField (s.address n) chars with
      | some bits => fieldAnswer order n bits (endExchange s)
      | none => fieldMiss order n (endExchange s)

/-- FIELD_ANSWER_TIMEOUT: tFAN passes without an answer (R184, R186). -/
def execFieldAnswerTimeout (order : BlockOrder) (s : State) : Result :=
  .next <|
    match s.awaited with
    | none => s
    | some n => fieldMiss order n (endExchange s)

end Sys2Proof.Machine
end

