-- ==== Sys2Proof/Machine/Reports.lean ====
section
/-!
DEFINITION. Status and reporting: COLLECT and COLLECT-NEXT (R155 to R158), SET-MASK (R159, R161) and FETCH-EVENT (R165).
-/

namespace Sys2Proof.Machine

/-- A collection of an element with something pending (R156). -/
def ElemRun.collect (r : ElemRun) : ElemRun :=
  if r.pend.ended then { r.unreport with op := none, activity := .idle } else r.unreport

/-- The operation in an element's record is one that the part created itself, a zone closure (R21, R108). -/
def ElemRun.closureRuns (r : ElemRun) : Bool := r.op.any fun o => o.requester.isNone

/-- A collection of an element with nothing pending: nothing is cleared (R156), but the overrun flag where it stands beside a
zone closure, that is, where the closure took ENDED away before the COLLECT (R158, last row). R156 and R151 clear nothing
here: following R158's row for that case alone is the model's choice (log 36). -/
def ElemRun.collectLate (r : ElemRun) : ElemRun := { r with overrun := r.overrun && !r.closureRuns }

/-- COLLECT of one element: the record is read before it is cleared (R150, R156, R158). The outcome where nothing is pending
is NOT_PENDING, R158's last row included (log 36). -/
def collectOn (e : ElemId) (c : ElementCfg) (s : State) : State × Reply :=
  let record := statusRecord e c (s.elem e)
  if (s.elem e).listed then answer .pending record (s.modElem e ElemRun.collect)
  else answer .notPending record (s.modElem e ElemRun.collectLate)

/-- COLLECT (R155). -/
def ownCollect (f : Option Byte) (s : State) : State × Reply :=
  if s.cfg.startUp = .unconfigured then refuse .mode s
  else
    match f with
    | none => refuse .form s
    | some b =>
      match s.elem? b with
      | none => refuse .unknown s
      | some (e, c) => if !(s.elem e).enabled then refuse .notOperational s else collectOn e c s

/-- COLLECT-NEXT (R157). -/
def ownCollectNext (p : Port) (f : Option Unit) (s : State) : State × Reply :=
  if s.cfg.startUp = .unconfigured then refuse .mode s
  else
    match f with
    | none => refuse .form s
    | some () =>
      match (s.firstReport s.rpu.masks[p]).bind fun e => (s.elemCfg e).map fun c => (e, c) with
      | some (e, c) => collectOn e c s
      | none => refuse .none s

/-- Replace a port's class mask. -/
def State.setMask (s : State) (p : Port) (m : ClassMask) : State :=
  { s with rpu := { s.rpu with masks := upd s.rpu.masks p fun _ => m } }

/-- SET-MASK (R159), with the attention for the oldest entry of an added class (R161). -/
def ownSetMask (p : Port) (f : Option Byte) (s : State) : State × Reply :=
  if s.cfg.startUp = .unconfigured then refuse .mode s
  else
    match f with
    | none => refuse .form s
    | some m =>
      let old := s.rpu.masks[p]
      answer .ok [old] (upAttention (m &&& ~~~old) p (s.setMask p m))

/-- An event entry, 9 bytes (spec/09, section 9.12). -/
def EventEntry.bytes (e : EventEntry) : List Byte :=
  [e.kind.code, e.source] ++ bytes16 e.detail ++ bytes32 e.time ++ [flagBit 0 e.overflow]

/-- FETCH-EVENT (R165). -/
def ownFetchEvent (p : Port) (f : Option Unit) (s : State) : State × Reply :=
  if !s.hearsEvents p then refuse .role s
  else
    match f with
    | none => refuse .form s
    | some () =>
      match s.rpu.events with
      | [] => refuse .none s
      | e :: es => answer .ok (e.bytes ++ [byteOf es.length]) { s with rpu := { s.rpu with events := es } }

def execCollect (p : Port) (seq elem : Byte) (s : State) : Result :=
  .next (request p seq 0x60 (ownCollect (some elem)) s)
def execCollectNext (p : Port) (seq : Byte) (s : State) : Result :=
  .next (request p seq 0x61 (ownCollectNext p (some ())) s)
def execSetMask (p : Port) (seq mask : Byte) (s : State) : Result :=
  .next (request p seq 0x62 (ownSetMask p (some mask)) s)
def execFetchEvent (p : Port) (seq : Byte) (s : State) : Result :=
  .next (request p seq 0x63 (ownFetchEvent p (some ())) s)

end Sys2Proof.Machine
end

