-- ==== Sys2Proof/Machine/ConfigStore.lean ====
section
/-!
DEFINITION. The Configuration Store: the byte layout of the configuration entries (spec/09, section 9.12) with the range
checks of a write (R2, R50, R78, R97, R144, R192; log 18), CFG-WRITE and CFG-READ (R193), and the validation that a
commit makes (R194). Entries are counted from 0 in every section (log 33).
-/

namespace Sys2Proof.Machine

/-! ### Fields of entries -/

/-- A value in a range, ends included. -/
def inRange (lo hi n : Nat) : Option Nat := if lo ≤ n ∧ n ≤ hi then some n else none

/-- A channel byte: 0xFF is unbound, and 0x00 to 0x7F name Nn.cc as 16n + cc. -/
def chan? (b : Byte) : Option (Option Chan) :=
  if b = 0xFF then some none
  else if h : b.toNat < 128 then
    some (some { node := ⟨b.toNat / 16, by omega⟩, line := ⟨b.toNat % 16, by omega⟩ })
  else none

/-- The bytes of references, each as it was written: also the number of a kind that takes none, and the references past the
first n (the model's choice, log 38). -/
def refBytes (rs : List RawRef) : List Byte := rs.flatMap fun r => [r.kind, r.arg]

/-- Four references, of which the first n are in range (R97, R144); the others are not read (spec/09, section 9.12), so they are
in range whatever they are, and are kept as written (the model's choice, log 38). -/
def refs? (n : Byte) (bs : List Byte) : Option (Nat × List RawRef) :=
  (refPairs bs).bind fun rs =>
    if 1 ≤ n.toNat ∧ n.toNat ≤ 4 ∧ rs.length = 4 ∧ (rs.take n.toNat).all refInRange then some (n.toNat, rs) else none

def elementKind? (b : Byte) : Option ElementKind :=
  match b.toNat with
  | 1 => some .visor | 2 => some .ramp | 3 => some .hoist | 4 => some .door | _ => none

def zoneKind? (b : Byte) : Option ZoneKind :=
  match b.toNat with
  | 1 => some .vehicle | 2 => some .passenger | _ => none

def interlockKind? (b : Byte) : Option InterlockKind :=
  match b.toNat with
  | 1 => some .onOpen | 2 => some .onClose | 3 => some .onAny | _ => none

def lockNeed? (b : Byte) : Option LockNeed :=
  match b.toNat with
  | 0 => some .any | 1 => some .locked | 2 => some .unlocked | _ => none

/-- At most two zones (R2, boundary zones; none is written for the kinds that have none). -/
def zoneCount (z : ZoneSet) : Nat := (zoneIds.filter (inZones z)).length

/-- Section 1. -/
def part? : List Byte → Option PartCfg
  | [p1, p0, c1, c0, e] => do
    let tPid ← inRange 10 600 (word16 p1 p0).toNat
    let tCnf ← inRange 30 600 (word16 c1 c0).toNat
    let tEgr ← inRange 5 120 e.toNat
    some { tPid := tPid, tCnf := tCnf, tEgr := tEgr }
  | _ => none

def partBytes (c : PartCfg) : List Byte := bytes16 (wordOf c.tPid) ++ bytes16 (wordOf c.tCnf) ++ [byteOf c.tEgr]

/-- Section 2. -/
def station? : List Byte → Option StationCfg
  | [d, m] => (inRange 1 6 d.toNat).map fun d => { homeDeck := d, mask := m }
  | _ => none

def stationBytes (c : StationCfg) : List Byte := [byteOf c.homeDeck, c.mask]

/-- Section 3. -/
def unitCfg? : List Byte → Option UnitCfg
  | [s, r, f] => do
    let s ← chan? s
    let r ← chan? r
    let f ← chan? f
    some { startOut := s, running := r, fault := f }
  | _ => none

def unitCfgBytes (c : UnitCfg) : List Byte := [chanByte c.startOut, chanByte c.running, chanByte c.fault]

/-- Section 4. -/
def nodeCfg? : List Byte → Option NodeCfg
  | [a] => (inRange 1 8 a.toNat).map fun a => { address := a }
  | _ => none

def nodeCfgBytes (c : NodeCfg) : List Byte := [byteOf c.address]

/-- Section 5; alarm cue 0 is accepted and means absent (R192). -/
def zoneCfg? : List Byte → Option ZoneCfg
  | [d, k, q, n, r0, r1, r2, r3, r4, r5, r6, r7, rep, int, cls] => do
    let d ← inRange 1 6 d.toNat
    let k ← zoneKind? k
    let rs ← refs? n [r0, r1, r2, r3, r4, r5, r6, r7]
    let rep ← inRange 1 8 rep.toNat
    let cls ← inRange 0 7 cls.toNat
    some { deck := d, kind := k, cue := q, nRefs := rs.1, refs := rs.2, repeats := rep, interval := int.toNat, cls := cls }
  | _ => none

def zoneCfgBytes (c : ZoneCfg) : List Byte :=
  [byteOf c.deck, zoneKindCode c.kind, c.cue, byteOf c.nRefs] ++ refBytes c.refs ++
    [byteOf c.repeats, byteOf c.interval, byteOf c.cls]

/-- A range, or 0 where R2 marks the field absent (spec/09, section 9.12; log 18). -/
def rangeOrAbsent (absent : Bool) (lo hi n : Nat) : Option Nat :=
  if absent && n = 0 then some 0 else inRange lo hi n

/-- Section 6. A set of more than two boundary zones is out of range (R2; log 18). A DOOR without one is taken here and fails at the
commit, by R194, and not at the write, where R2 could be read to refuse it: the model's choice (log 43). -/
def elementCfg? : List Byte → Option ElementCfg
  | [k, hz, b1, b0, lck, t1, t0, wrn, fl, w, ins, msk, cls, c0, c1, c2, c3, c4, c5, c6, c7, c8, c9] => do
    let k ← elementKind? k
    let hz ← zoneIndex? hz
    let closedLimit ← chan? c0
    let openLimit ← chan? c1
    let locked ← chan? c2
    let unlocked ← chan? c3
    let obstruction ← chan? c4
    let driveOpen ← chan? c5
    let driveClose ← chan? c6
    let lock ← chan? c7
    let unlock ← chan? c8
    let warning ← chan? c9
    let door : Bool := k = .door
    let tLck ← rangeOrAbsent (door || !(locked.isSome && unlocked.isSome)) 1 60 lck.toNat
    let tTrv ← inRange 5 600 (word16 t1 t0).toNat
    let tWrn ← rangeOrAbsent (!door) 2 30 wrn.toNat
    let weight ← rangeOrAbsent door 1 2 w.toNat
    let cls ← inRange 0 7 cls.toNat
    if 2 < zoneCount (word16 b1 b0) then none
    else
      some
        { kind := k, homeZone := hz, boundary := word16 b1 b0, tLck := tLck, tTrv := tTrv, tWrn := tWrn
          consent := fl.getLsbD 0, multipath := fl.getLsbD 1, enabled := fl.getLsbD 2, weight := weight
          installed := pathMask ins, mask := pathMask msk, cls := cls, closedLimit := closedLimit, openLimit := openLimit
          locked := locked, unlocked := unlocked, obstruction := obstruction, driveOpen := driveOpen
          driveClose := driveClose, lock := lock, unlock := unlock, warning := warning }
  | _ => none

/-- The ten channels of an element entry, in the order of the layout. -/
def elementChans (c : ElementCfg) : List (Option Chan) :=
  [c.closedLimit, c.openLimit, c.locked, c.unlocked, c.obstruction, c.driveOpen, c.driveClose, c.lock, c.unlock,
    c.warning]

def elementCfgBytes (c : ElementCfg) : List Byte :=
  [elementKindCode c.kind, zoneByte c.homeZone] ++ bytes16 c.boundary ++ [byteOf c.tLck] ++ bytes16 (wordOf c.tTrv) ++
    [byteOf c.tWrn, flagBit 0 c.consent ||| flagBit 1 c.multipath ||| flagBit 2 c.enabled, byteOf c.weight,
      c.installed.setWidth 8, c.mask.setWidth 8, byteOf c.cls] ++ (elementChans c).map chanByte

/-- Section 7. -/
def interlockCfg? : List Byte → Option InterlockCfg
  | [d, k, p, pos, l] => do
    let d ← index? 32 d
    let k ← interlockKind? k
    let p ← index? 32 p
    let pos ← inRange 1 2 pos.toNat
    let l ← lockNeed? l
    some { dependent := d, opKind := k, prerequisite := p, needOpen := pos = 2, needLock := l }
  | _ => none

def interlockCfgBytes (c : InterlockCfg) : List Byte :=
  [byteOf c.dependent.val, interlockKindCode c.opKind, byteOf c.prerequisite.val, if c.needOpen then 2 else 1,
    lockNeedCode c.needLock]

/-- Section 8. -/
def bindingCfg? : List Byte → Option BindingCfg
  | [e, pos, q, n, r0, r1, r2, r3, r4, r5, r6, r7, lev, rep, int, x1, x0, fl] => do
    let e ← index? 32 e
    let pos ← position? pos
    let rs ← refs? n [r0, r1, r2, r3, r4, r5, r6, r7]
    let lev ← inRange 0 7 lev.toNat
    let rep ← inRange 1 8 rep.toNat
    let x ← inRange 0 3600 (word16 x1 x0).toNat
    if q = 0 then none
    else
      some
        { element := e, entry := pos, cue := q, nRefs := rs.1, refs := rs.2, level := lev, repeats := rep
          interval := int.toNat, expiry := x, cancel := bit0 fl }
  | _ => none

def bindingCfgBytes (c : BindingCfg) : List Byte :=
  [byteOf c.element.val, positionCode c.entry, c.cue, byteOf c.nRefs] ++ refBytes c.refs ++
    [byteOf c.level, byteOf c.repeats, byteOf c.interval] ++ bytes16 (wordOf c.expiry) ++ [flagBit 0 c.cancel]

/-! ### Entries of the image -/

/-- The size of a section's entry (spec/09, section 9.12), none for a number that names no section. -/
def entrySize? (sect : Byte) : Option Nat :=
  match sect.toNat with
  | 1 => some 5 | 2 => some 2 | 3 => some 3 | 4 => some 1 | 5 => some 15 | 6 => some 23 | 7 => some 5 | 8 => some 18
  | _ => none

/-- Replace one place of a section that may be empty: none where the write is out of form. -/
def writePlace {α : Type} {n : Nat} (read : List Byte → Option α) (v : Vector (Option α) n) (entry : Byte)
    (configured : Bool) (bs : List Byte) : Option (Vector (Option α) n) :=
  (index? n entry).bind fun i =>
    if configured then (read bs).map fun a => upd v i fun _ => some a else some (upd v i fun _ => none)

/-- Replace one place of a section that may not be empty. -/
def writeFull {α : Type} {n : Nat} (read : List Byte → Option α) (v : Vector α n) (entry : Byte) (configured : Bool)
    (bs : List Byte) : Option (Vector α n) :=
  (index? n entry).bind fun i => if configured then (read bs).map fun a => upd v i fun _ => a else none

/-- CFG-WRITE on the image, none where check 4 of R193 fails. -/
def writeEntry (img : Image) (f : WriteFields) : Option Image :=
  let c := bit0 f.flags
  match f.sect.toNat with
  | 1 => if f.entry = 0 ∧ c then (part? f.fields).map fun p => { img with part := p } else none
  | 2 => (writeFull station? img.stations f.entry c f.fields).map fun v => { img with stations := v }
  | 3 => (writeFull unitCfg? img.units f.entry c f.fields).map fun v => { img with units := v }
  | 4 => (writePlace nodeCfg? img.nodes f.entry c f.fields).map fun v => { img with nodes := v }
  | 5 => (writePlace zoneCfg? img.zones f.entry c f.fields).map fun v => { img with zones := v }
  | 6 => (writePlace elementCfg? img.elements f.entry c f.fields).map fun v => { img with elements := v }
  | 7 => (writePlace interlockCfg? img.interlocks f.entry c f.fields).map fun v => { img with interlocks := v }
  | 8 => (writePlace bindingCfg? img.bindings f.entry c f.fields).map fun v => { img with bindings := v }
  | _ => none

/-- The configured bit and the fields of a place that may be empty. -/
def readPlace {α : Type} {n : Nat} (bytes : α → List Byte) (v : Vector (Option α) n) (entry : Byte) :
    Option (Bool × List Byte) :=
  (index? n entry).map fun i =>
    match v[i] with
    | some a => (true, bytes a)
    | none => (false, [])

/-- One entry of the image: its configured bit and its fields; none where it does not exist. -/
def readEntry (img : Image) (sect entry : Byte) : Option (Bool × List Byte) :=
  match sect.toNat with
  | 1 => if entry = 0 then some (true, partBytes img.part) else none
  | 2 => (index? 4 entry).map fun i => (true, stationBytes img.stations[i])
  | 3 => (index? 4 entry).map fun i => (true, unitCfgBytes img.units[i])
  | 4 => readPlace nodeCfgBytes img.nodes entry
  | 5 => readPlace zoneCfgBytes img.zones entry
  | 6 => readPlace elementCfgBytes img.elements entry
  | 7 => readPlace interlockCfgBytes img.interlocks entry
  | 8 => readPlace bindingCfgBytes img.bindings entry
  | _ => none

/-! ### Service requests (R193) -/

/-- A taken SOFT-RESET awaits its effect: its OK stands in a transmit FIFO (R180, R193). -/
def State.softResetWaits (s : State) : Bool := portIds.any fun p => (s.port p).tx.any TxPlace.isSoftOk

/-- Checks 1 to 3 of R193, with the payload's length after MODE and ROLE (R173); none where they pass. -/
def State.cfgTest (s : State) (p : Port) (lengthOk : Bool) : Option Answer :=
  if s.cfg.startUp ≠ .service then some .mode
  else if s.role p ≠ .bridge then some .role
  else if !lengthOk then some .form
  else if s.cfg.committing.isSome || s.softResetWaits then some .busy
  else none

/-- CFG-WRITE's length: 3 for an empty entry, 3 and the entry's size for a configured one (spec/09, section 9.12). The layout
gives a section outside 1 to 8 no size, and that such a CFG-WRITE has no length to check, so that BUSY comes before its FORM, is
the model's choice (log 42). -/
def writeLengthOk (f : WriteFields) : Bool :=
  match entrySize? f.sect with
  | some n => f.fields.length = if bit0 f.flags then n else 0
  | none => true

/-- The image takes a new entry, and the checksum becomes invalid (R193). -/
def State.writeImage (s : State) (img : Image) : State := { s with cfg := { s.cfg with image := img, valid := false } }

/-- CFG-WRITE (R193). -/
def ownCfgWrite (p : Port) (f : Option WriteFields) (s : State) : State × Reply :=
  match s.cfgTest p (f.any writeLengthOk) with
  | some a => refuse a s
  | none =>
    match f.bind (writeEntry s.cfg.image) with
    | none => refuse .form s
    | some img => answer .ok [] (s.writeImage img)

/-- CFG-READ (R193). -/
def ownCfgRead (p : Port) (f : Option (Byte × Byte)) (s : State) : State × Reply :=
  match s.cfgTest p f.isSome with
  | some a => refuse a s
  | none =>
    match f.bind fun f => (readEntry s.cfg.image f.1 f.2).map fun r => (f, r) with
    | none => refuse .form s
    | some (f, r) => answer .ok ([f.1, f.2, flagBit 0 r.1] ++ r.2 ++ [flagBit 0 s.cfg.valid]) s

/-- CFG-COMMIT: the commit flag is set, and the response waits for the end of the work (R194, R173). -/
def ownCfgCommit (p : Port) (f : Option Unit) (s : State) : State × Reply :=
  match s.cfgTest p f.isSome with
  | some a => refuse a s
  | none => ({ s with cfg := { s.cfg with committing := some p } }, .later)

def execCfgWrite (p : Port) (seq : Byte) (f : WriteFields) (s : State) : Result :=
  .next (request p seq 0x70 (ownCfgWrite p (some f)) s)
def execCfgRead (p : Port) (seq sect entry : Byte) (s : State) : Result :=
  .next (request p seq 0x71 (ownCfgRead p (some (sect, entry))) s)
def execCfgCommit (p : Port) (seq : Byte) (s : State) : Result :=
  .next (request p seq 0x72 (ownCfgCommit p (some ())) s)

/-! ### Validation (R194) -/

/-- A channel lies on a configured node, or is unbound. -/
def chanOk (img : Image) (c : Option Chan) : Bool :=
  match c with
  | some c => img.nodes[c.node].isSome
  | none => true

/-- Entry of POWER UNITS passes. -/
def unitOk (img : Image) (c : UnitCfg) : Bool :=
  (c.startOut.isSome = c.running.isSome) && (!c.fault.isSome || unitInstalled c) && (unitChans c).all (chanOk img)

/-- Entry n of NODES passes: no lower-numbered node has its address. -/
def nodeOk (img : Image) (n : NodeId) (c : NodeCfg) : Bool :=
  (List.finRange 8).all fun m =>
    match img.nodes[m] with
    | some d => !(decide (m < n) && d.address = c.address)
    | none => true

/-- Entry z of ZONES passes. -/
def zoneOkAt (img : Image) (z : ZoneId) (c : ZoneCfg) : Bool :=
  c.cue ≠ 0 && (resolveRefs img (zoneContext img z) (c.refs.take c.nRefs)).isSome

/-- A path mask names installed units only. -/
def pathInstalled (img : Image) (m : PathMask) : Bool :=
  units.all fun u => !inPath m u || unitInstalled img.units[u]

/-- What R194 asks of a DOOR. -/
def doorOk (c : ElementCfg) : Bool :=
  c.boundary ≠ 0 && !c.locked.isSome && !c.unlocked.isSome && !c.lock.isSome && !c.unlock.isSome && !c.consent &&
    c.weight = 0 && c.installed = 0 && !c.multipath

/-- What R194 asks of a powered kind. -/
def poweredOk (c : ElementCfg) : Bool :=
  c.boundary = 0 && !c.obstruction.isSome && c.installed ≠ 0 && c.mask ≠ 0

/-- Entry of ELEMENTS passes. -/
def elementOk (img : Image) (c : ElementCfg) : Bool :=
  img.zones[c.homeZone].isSome && (zoneIds.all fun z => !inZones c.boundary z || img.zones[z].isSome) &&
    c.closedLimit.isSome && c.openLimit.isSome && c.driveOpen.isSome && c.driveClose.isSome &&
    (c.locked.isSome = c.unlocked.isSome) && (c.lock.isSome = c.locked.isSome) && (c.unlock.isSome = c.locked.isSome) &&
    (if isDoor c then doorOk c else poweredOk c) && pathInstalled img c.installed &&
    c.mask &&& ~~~c.installed = 0 && (elementChans c).all (chanOk img)

/-- Entry of INTERLOCKS passes. -/
def interlockOk (img : Image) (c : InterlockCfg) : Bool :=
  img.elements[c.dependent].isSome && c.dependent ≠ c.prerequisite &&
    match img.elements[c.prerequisite] with
    | some e => c.needLock = .any || lockBound e
    | none => false

/-- Entry of BINDINGS passes. -/
def bindingOk (img : Image) (c : BindingCfg) : Bool :=
  match img.elements[c.element] with
  | some e => (resolveRefs img (zoneContext img e.homeZone) (c.refs.take c.nRefs)).isSome
  | none => false

/-- The output channels that a unit's entry binds. -/
def unitOutputs (c : UnitCfg) : List Chan := [c.startOut].filterMap id

/-- The output channels that an element's entry binds (R3). -/
def elementOutputs (c : ElementCfg) : List Chan :=
  [c.driveOpen, c.driveClose, c.lock, c.unlock, c.warning].filterMap id

/-- One entry as the commit takes it: its section and number, whether its own checks pass, and the outputs it binds. -/
structure CommitItem where
  sect    : Byte
  entry   : Byte
  ok      : Bool
  outputs : List Chan
  deriving DecidableEq, Repr

/-- The entries of one section that may be empty. -/
def placeItems {α : Type} {n : Nat} (sect : Byte) (v : Vector (Option α) n) (ok : Fin n → α → Bool)
    (outs : α → List Chan) : List CommitItem :=
  (List.finRange n).filterMap fun i =>
    v[i].map fun a => { sect := sect, entry := byteOf i.val, ok := ok i a, outputs := outs a }

/-- Every entry, the sections and the entries of each in ascending number (R194). PART and STATIONS have no check. -/
def commitItems (img : Image) : List CommitItem :=
  (units.map fun u =>
    { sect := 3, entry := byteOf u.val, ok := unitOk img img.units[u], outputs := unitOutputs img.units[u] }) ++
    placeItems 4 img.nodes (nodeOk img) (fun _ => []) ++ placeItems 5 img.zones (zoneOkAt img) (fun _ => []) ++
    placeItems 6 img.elements (fun _ => elementOk img) elementOutputs ++
    placeItems 7 img.interlocks (fun _ => interlockOk img) (fun _ => []) ++
    placeItems 8 img.bindings (fun _ => bindingOk img) (fun _ => [])

/-- The first entry that fails, with the outputs bound by the entries checked before it (R194). -/
def firstFailure : List Chan → List CommitItem → Option (Byte × Byte)
  | _, [] => none
  | bound, i :: is =>
    if i.ok && i.outputs.all fun c => !bound.contains c then firstFailure (bound ++ i.outputs) is
    else some (i.sect, i.entry)

/-- The validation of an image: none where it passes, else the failing section and entry (R194). -/
def validate (img : Image) : Option (Byte × Byte) := firstFailure [] (commitItems img)

end Sys2Proof.Machine
end

