-- ==== Sys2Proof/Machine/Reset.lean ====
section
/-!
DEFINITION. Reset and start-up (R195): the straps (R191), the start-up state, the loaded blocks and their values after a reset
(R18, R62, R79, R98, R130, R148, R166, R180, R190), the RESET pin, and the effect of a SOFT-RESET (R196).
-/

namespace Sys2Proof.Machine

/-- The role that a port's two straps give (R191). -/
def Straps.roleOf (st : Straps) (p : Port) : Role :=
  match st.roleA.getLsbD p.val, st.roleB.getLsbD p.val with
  | false, false => .off
  | false, true => .bridge
  | true, false => .deck
  | true, true => .safety

/-- The start-up state (R195). -/
def startUpOf (modeHigh valid : Bool) : StartUp :=
  if modeHigh then .service else if valid then .run else .unconfigured

/-- A configured element's run fields after a reset (R18). -/
def ElemRun.atReset (c : ElementCfg) : ElemRun where
  enabled := c.enabled
  mask := c.mask
  cls := c.cls
  multipath := c.multipath
  position := .unknown
  lock := if lockBound c then .unknown else .none
  posSeen := false
  lockSeen := !lockBound c
  activity := .idle
  op := none
  hold := .none
  pend := { ended := false, stage := false, alert := false }
  alertReason := .none
  overrun := false
  last := LastCompletion.empty
  closureOwed := false

/-- The element record of a place, configured or empty. -/
def elemAtReset (img : Image) (e : ElemId) : ElemRun :=
  match img.elements[e] with
  | some c => ElemRun.atReset c
  | none => ElemRun.empty

/-- The event queue after start-up: the first event, and CONFIG_BAD behind it in UNCONFIGURED (R166, R195). -/
def startEvents (first : EventKind) (source : Byte) (su : StartUp) : List EventEntry :=
  { kind := first, source := source, detail := 0, time := 0, overflow := false } ::
    (if su = .unconfigured then [{ kind := .configBad, source := 0, detail := 0, time := 0, overflow := false }] else [])

/-- The block's state after a start-up that loads `img`, before the PA port's FAULT input is looked at. -/
def fresh (first : EventKind) (source : Byte) (st : Straps) (img : Image) (s : State) : State where
  time := 0
  cfg :=
    { image := s.cfg.image
      valid := s.cfg.valid
      startUp := startUpOf st.modeHigh s.cfg.valid
      committing := none
      loaded := img }
  ports := Vector.ofFn fun p => PortRec.atReset (Straps.roleOf st p)
  etu :=
    { elems := Vector.ofFn fun e => elemAtReset img e
      auth := Vector.replicate 4 { linkUp := false, orphan := none }
      alarmed := 0
      reports := [] }
  dpm := { units := Vector.replicate 4 UnitRun.atReset, queue := [] }
  zones := Vector.replicate 16 ZoneRun.atReset
  csc :=
    { queue := []
      stack := []
      slot := none
      muted := 0
      nextId := 1
      acceptCount := 0
      pa :=
        { state := .idle, timer := none, cue := 0, zones := 0, play := false, stop := false
          busy := s.csc.pa.busy, fault := s.csc.pa.fault } }
  rpu :=
    { masks := Vector.ofFn fun p => img.stations[p].mask
      events := startEvents first source (startUpOf st.modeHigh s.cfg.valid) }
  flc :=
    { nodes := Vector.ofFn fun n => NodeRun.atReset img.nodes[n].isSome, exchange := none, served := none
      driving := false, ftxd := [] }
  pending := s.pending

/-- The image that the blocks load: the held one where its checksum is valid, nothing otherwise (R195). -/
def loadedImage (c : Cfg) : Image := if c.valid then c.image else Image.blank

/-- A reset of either kind (R195, R196): a FAULT input that reads high at its end counts as a rise (R133). -/
def startPart (first : EventKind) (source : Byte) (st : Straps) (s : State) : State :=
  let s := fresh first source st (loadedImage s.cfg) s
  if s.csc.pa.fault then faultRises s else s

/-- RESET: the RESET pin (R195); a frame on a line ends without an abort sequence (log 45). -/
def execReset (st : Straps) (s : State) : Result := .next (startPart .powerUp 0 st s)

/-- A SOFT-RESET takes effect, by the response or the loss of port p (R196). A frame that it cuts off on any port ends with its
driver (R180), without the abort sequence of R168: the model's choice (log 45). -/
def softResetEffect (p : Port) (st : Straps) (s : State) : State := startPart .softReset (byteOf p.val) st s

end Sys2Proof.Machine
end

