-- ==== Sys2Proof/Machine/Starts.lean ====
section
/-!
DEFINITION. The requests and timers of operations: START with EGRESS (R23 to R26), HALT, CLEAR, RESUME, STOP-ALL and
CONSENT (R40, R45 to R49), and the expiries of the stage timer, the stage limit, the consent window and the suspension
timer (R30, R31, R39, R43).
-/

namespace Sys2Proof.Machine

/-! ### START (R23 to R26) -/

/-- The kind that a code names (spec/09, section 9.12). -/
def opKind? (b : Byte) : Option OpKind :=
  match b.toNat with
  | 1 => some .opening
  | 2 => some .closing
  | 3 => some .egress
  | _ => none

/-- START, check 3 (R23). -/
def startInForm (c : ElementCfg) (k : OpKind) (f : StartFields) : Bool :=
  (isDoor c || k ≠ .egress) && decide (f.cls.toNat ≤ 7)

/-- START, check 5: the role and hold test (R24). -/
def State.startTest (s : State) (p : Port) (e : ElemId) (c : ElementCfg) (k : OpKind) : Option (Answer × List Byte) :=
  if k = .egress ∧ s.role p ≠ .safety then some (.role, [])
  else if s.role p = .safety ∧ isDoor c ∧ (k = .closing ∨ k = .egress) then none
  else s.holdTest p e c

/-- An EGRESS overtakes the OPEN or CLOSE in progress on its door (R26). -/
def State.overtakes (s : State) (p : Port) (e : ElemId) (k : OpKind) : Bool :=
  k = .egress && s.role p = .safety && ((s.elem e).activity = .active || (s.elem e).activity = .suspended) &&
    (s.elem e).op.any fun o => o.kind ≠ .egress

/-- The zone test (R116). -/
def State.zoneRefuses (s : State) (p : Port) (c : ElementCfg) (k : OpKind) : Bool :=
  if isDoor c then k = .opening && s.doorAlarmed c
  else s.role p = .deck && inZones s.etu.alarmed c.homeZone

/-- A station CLOSE of a door with an alarmed boundary zone receives the mark at acceptance (R116). -/
def State.startMark (s : State) (c : ElementCfg) (k : OpKind) : Bool :=
  isDoor c && k = .closing && s.doorAlarmed c

/-- The operation record of an accepted START (R21). -/
def OpRec.started (p : Port) (k : OpKind) (f : StartFields) (mark : Bool) : OpRec where
  kind := k
  requester := some p
  tag := f.tag
  cls := f.cls.toNat
  stageReport := bit0 f.flags
  stage := .none
  reasons := { consent := false, interlock := false, path := false }
  attempts := 0
  motion := 0
  stageTime := 0
  slot := none
  code := .none
  mark := mark
  window := none
  suspTimer := none

/-- The target is already reached (R25). -/
def targetReached (k : OpKind) (r : ElemRun) : Bool :=
  match k with
  | .closing => r.position = .closed && (r.lock = .locked || r.lock = .none)
  | .opening => r.position = .opened && (r.lock = .unlocked || r.lock = .none)
  | .egress => false

/-- The waiter that a slot request makes (R86, R89). -/
def State.startWaiter (s : State) (e : ElemId) (c : ElementCfg) : Waiter where
  elem := e
  weight := c.weight
  path := s.pathSet e c
  multipath := (s.elem e).multipath
  kind := .start

/-- What stands of the record before it: an overtaken record is discarded (R26); otherwise the last completion fields are
emptied (R25). -/
def ElemRun.makeRoom (overtaken : Bool) (r : ElemRun) : ElemRun :=
  if overtaken then r.dropEnded else { r with last := LastCompletion.empty }

/-- A new operation record is made (R25). -/
def beginOp (e : ElemId) (overtaken : Bool) (a : Activity) (o : OpRec) (s : State) : State :=
  s.modElem e fun r => { r.makeRoom overtaken with activity := a, op := some o }

/-- What an accepted START does, by the first case of R25 that applies, with the activity that it answers (log 10). -/
def applyStart (p : Port) (e : ElemId) (c : ElementCfg) (k : OpKind) (f : StartFields) (s : State) :
    State × Activity :=
  let o := OpRec.started p k f (s.startMark c k)
  let replaced := s.overtakes p e k
  let s := if replaced then endRecord e .overtaken s else s
  if targetReached k (s.elem e) then (endOp e .done (beginOp e replaced .active o s), .ended)
  else if !isDoor c then
    (slotRequest (s.startWaiter e c) (beginOp e replaced .startPending { o with stage := .prep } s), .startPending)
  else
    let st : Stage := if k = .closing then .warn else .travelOpen
    (settleStage stageChain e (enterStage e c st (beginOp e replaced .active o s)), .active)

/-- START, checks 6 to 11 (R23), and its effect. -/
def startOn (p : Port) (e : ElemId) (c : ElementCfg) (k : OpKind) (f : StartFields) (s : State) : State × Reply :=
  let r := s.elem e
  if r.activity.inProgress ∧ !s.overtakes p e k then refuse .busy s
  else if r.activity = .ended then refuse .statusPending s
  else if r.position = .unknown ∨ r.position = .conflict ∨ r.lock = .unknown ∨ r.lock = .conflict then
    refuse .position s
  else if s.zoneRefuses p c k then refuse .zone s
  else
    match if s.startMark c k then none else s.failingEntry e k with
    | some i => answer .interlock [byteOf i.val] s
    | none =>
      if !isDoor c && !(units.any (s.candidate (s.pathSet e c))) then refuse .path s
      else
        let r := applyStart p e c k f s
        answer .accepted [f.elem, r.2.code] r.1

/-- START (R23). -/
def ownStart (p : Port) (f : Option StartFields) (s : State) : State × Reply :=
  if s.cfg.startUp ≠ .run then refuse .mode s
  else
    match f with
    | none => refuse .form s
    | some f =>
      match s.elem? f.elem with
      | none => refuse .unknown s
      | some (e, c) =>
        match opKind? f.kind with
        | none => refuse .form s
        | some k =>
          if !startInForm c k f then refuse .form s
          else if !(s.elem e).enabled then refuse .disabled s
          else
            match s.startTest p e c k with
            | some (a, data) => answer a data s
            | none => startOn p e c k f s

def execStart (p : Port) (seq : Byte) (f : StartFields) (s : State) : Result :=
  .next (request p seq 0x12 (ownStart p (some f)) s)

/-! ### HALT, CLEAR, RESUME (R45, R47, R48) -/

/-- The hold test with the exemptions of HALT and CLEAR (R65). -/
def State.haltTest (s : State) (p : Port) (e : ElemId) (c : ElementCfg) : Option (Answer × List Byte) :=
  if s.role p = .bridge ∨ (s.role p = .safety ∧ isDoor c) then none else s.holdTest p e c

/-- HALT (R47). -/
def ownHalt (p : Port) (f : Option Byte) (s : State) : State × Reply :=
  if s.cfg.startUp = .unconfigured then refuse .mode s
  else
    match f with
    | none => refuse .form s
    | some b =>
      match s.elem? b with
      | none => refuse .unknown s
      | some (e, c) =>
        if !(s.elem e).enabled then refuse .disabled s
        else
          match s.haltTest p e c with
          | some (a, data) => answer a data s
          | none =>
            if !(s.elem e).activity.inProgress then refuse .notActive s
            else if s.marked e && s.role p ≠ .safety then refuse .zone s
            else answer .ok [] (endAndRelease e .halted s)

/-- The steps of CLEAR on the element record (R48). -/
def ElemRun.clear (r : ElemRun) : ElemRun := { r.unreport with op := none, activity := .idle }

/-- What a taken CLEAR does (R48, R114, R109): a marked operation in progress takes the closure-owed flag with it. -/
def applyClear (e : ElemId) (c : ElementCfg) (s : State) : State :=
  let wasMarked := (s.elem e).activity.inProgress && s.marked e
  let s := dpm [.release e] (writeOutputs e (s.modElem e ElemRun.clear))
  closureTest e c (if wasMarked then setOwed e false s else s)

/-- CLEAR (R48). -/
def ownClear (p : Port) (f : Option Byte) (s : State) : State × Reply :=
  if s.cfg.startUp = .unconfigured then refuse .mode s
  else
    match f with
    | none => refuse .form s
    | some b =>
      match s.elem? b with
      | none => refuse .unknown s
      | some (e, c) =>
        if !(s.elem e).enabled then refuse .disabled s
        else
          match s.haltTest p e c with
          | some (a, data) => answer a data s
          | none =>
            if s.marked e && s.role p ≠ .safety then refuse .zone s
            else answer .ok [] (applyClear e c s)

/-- INTERLOCK leaves the reasons (R45, R60). -/
def OpRec.freed (o : OpRec) : OpRec := { o with reasons := { o.reasons with interlock := false } }

/-- RESUME's effect (R45). -/
def resumeOn (e : ElemId) (s : State) : State × Reply :=
  match (s.elem e).activity, (s.elem e).op with
  | .suspended, some o =>
    if o.reasons.interlock then
      match s.opFailingEntry e with
      | some i => answer .interlock [byteOf i.val] s
      | none => answer .ok [] (handRelease e (returnToActive e (s.modOp e OpRec.freed)))
    else answer .ok [] s
  | _, _ => refuse .notSuspended s

/-- RESUME (R45). -/
def ownResume (p : Port) (f : Option Byte) (s : State) : State × Reply :=
  if s.cfg.startUp = .unconfigured then refuse .mode s
  else
    match f with
    | none => refuse .form s
    | some b =>
      match s.elem? b with
      | none => refuse .unknown s
      | some (e, c) =>
        if !(s.elem e).enabled then refuse .disabled s
        else
          match s.holdTest p e c with
          | some (a, data) => answer a data s
          | none => resumeOn e s

def execHalt (p : Port) (seq elem : Byte) (s : State) : Result := .next (request p seq 0x13 (ownHalt p (some elem)) s)
def execResume (p : Port) (seq elem : Byte) (s : State) : Result :=
  .next (request p seq 0x14 (ownResume p (some elem)) s)
def execClear (p : Port) (seq elem : Byte) (s : State) : Result :=
  .next (request p seq 0x15 (ownClear p (some elem)) s)

/-! ### CONSENT (R40) -/

/-- CONSENT results (spec/09, section 9.12). -/
def consentRenewed : Byte := 0
def consentCleared : Byte := 1
def consentIgnored : Byte := 2

/-- The window restarts at tCW (R40). -/
def OpRec.renew (o : OpRec) : OpRec := { o with window := some tCw }

/-- CONSENT leaves the reasons and the window restarts (R40). -/
def OpRec.consented (o : OpRec) : OpRec := { o with window := some tCw, reasons := { o.reasons with consent := false } }

/-- CONSENT at one listed element (R40). -/
def consentOne (p : Port) (b : Byte) (s : State) : State × Byte :=
  match s.elem? b with
  | none => (s, consentIgnored)
  | some (e, c) =>
    match (s.elem e).activity, (s.elem e).op with
    | .active, some _ =>
      if (s.elem e).hold = .held p ∧ needsConsent c then (s.modOp e OpRec.renew, consentRenewed)
      else (s, consentIgnored)
    | .suspended, some o =>
      if (s.elem e).hold = .held p ∧ needsConsent c then
        if o.reasons.consent then
          (handRelease e (returnToActive e (s.modOp e OpRec.consented)), consentCleared)
        else (s.modOp e OpRec.renew, consentRenewed)
      else (s, consentIgnored)
    | _, _ => (s, consentIgnored)

/-- CONSENT at the listed elements, in the order listed (R40). -/
def consentAll (p : Port) : List Byte → State → State × List Byte
  | [], s => (s, [])
  | b :: bs, s =>
    let r := consentOne p b s
    let rest := consentAll p bs r.1
    (rest.1, r.2 :: rest.2)

/-- CONSENT (R40). Any list of 1 to 8 bytes is of an admitted length (R173). -/
def ownConsent (p : Port) (elems : List Byte) (s : State) : State × Reply :=
  if s.cfg.startUp = .unconfigured then refuse .mode s
  else if elems.length = 0 ∨ 8 < elems.length then refuse .form s
  else
    let r := consentAll p elems s
    answer .ok r.2 r.1

def execConsent (p : Port) (seq : Byte) (elems : List Byte) (s : State) : Result :=
  .next (request p seq 0x16 (ownConsent p elems) s)

/-! ### STOP-ALL (R49) -/

/-- The elements whose operations STOP-ALL ends. -/
def State.stoppable (s : State) : List ElemId :=
  elements.filter fun e =>
    (s.elemCfg e).any (fun c => !isDoor c) && (s.elem e).activity.inProgress

/-- STOP-ALL (R49; the MODE check before the ROLE check: log 12). -/
def ownStopAll (p : Port) (f : Option Unit) (s : State) : State × Reply :=
  if s.cfg.startUp = .unconfigured then refuse .mode s
  else if s.role p ≠ .bridge then refuse .role s
  else
    match f with
    | none => refuse .form s
    | some () =>
      let es := s.stoppable
      answer .ok [byteOf es.length] (batchRelease es (es.foldl (fun s e => endOp e .halted s) s))

def execStopAll (p : Port) (seq : Byte) (s : State) : Result := .next (request p seq 0x17 (ownStopAll p (some ())) s)

/-! ### Expiries -/

/-- STAGE_TIMER_EXPIRY: the stage time of a timed stage reaches its duration (R30); an ending that this brings releases what
the element holds (R46). -/
def stageTimer (e : ElemId) (s : State) : State :=
  match s.elemCfg e, (s.elem e).op with
  | some c, some o =>
    match s.stageDuration c o.stage with
    | some d => if (s.elem e).activity = .active ∧ d ≤ o.stageTime.toNat then handRelease e (advance e s) else s
    | none => s
  | _, _ => s

/-- STAGE_LIMIT_EXPIRY: the stage time reaches tLCK or tTRV (R31). -/
def stageLimitReached (e : ElemId) (s : State) : State :=
  match s.elemCfg e, (s.elem e).op with
  | some c, some o =>
    match stageLimit c o.stage with
    | some d =>
      if (s.elem e).activity = .active ∧ d ≤ o.stageTime.toNat then endAndRelease e .timeout s else s
    | none => s
  | _, _ => s

/-- CONSENT_WINDOW_EXPIRY (R39). -/
def windowExpires (e : ElemId) (s : State) : State :=
  match (s.elem e).op with
  | some o => if o.window = some 0 then suspend e OpRec.lapse s else s
  | none => s

/-- SUSPENSION_TIMEOUT: tSUS (R43). -/
def suspensionExpires (e : ElemId) (s : State) : State :=
  match (s.elem e).op with
  | some o =>
    if (s.elem e).activity = .suspended ∧ o.suspTimer = some 0 then endAndRelease e .abandoned s else s
  | none => s

def execStageTimerExpiry (e : ElemId) (s : State) : Result := .next (finishReports s (stageTimer e s))
def execStageLimitExpiry (e : ElemId) (s : State) : Result := .next (finishReports s (stageLimitReached e s))
def execConsentWindowExpiry (e : ElemId) (s : State) : Result := .next (finishReports s (windowExpires e s))
def execSuspensionTimeout (e : ElemId) (s : State) : Result := .next (finishReports s (suspensionExpires e s))

end Sys2Proof.Machine
end

