-- ==== Sys2Proof/Machine/Zones.lean ====
section
/-!
DEFINITION. Fire zones: ZONE-ALARM, ZONE-CONFIRM, ZONE-RESET and ZONE-VIEW with the confirm timer (R99 to R103), the notices
to the ETU and the CSC (R105), the alarm rule at a door (R110) and the return to NORMAL (R117).
-/

namespace Sys2Proof.Machine

/-- A zone is alarmed in ALARM and in CONFIRMED (R98). -/
def ZoneRun.alarmed (z : ZoneRun) : Bool := z.fire ≠ .normal

/-! ### The alarm notice at the ETU (R110) -/

/-- The closure-owed flag is set on a door whose position is not CLOSED (R109). -/
def oweUnlessClosed (e : ElemId) (s : State) : State :=
  if (s.elem e).position = .closed then s else setOwed e true s

/-- A station CLOSE in progress receives the mark, and INTERLOCK leaves its reasons (R110, R60). -/
def OpRec.marking (o : OpRec) : OpRec := { o.freed with mark := true }

/-- One door that bounds the alarmed zone (R110). -/
def alarmDoor (e : ElemId) (c : ElementCfg) (s : State) : State :=
  let r := s.elem e
  if !r.enabled then
    if r.position = .closed then s
    else
      let s := setOwed e true s
      if !r.closureOwed && r.position ≠ .unknown then doorUnavailable e c s else s
  else
    match r.activity.inProgress, r.op with
    | true, some o =>
      let s := oweUnlessClosed e s
      match o.kind with
      | .opening => endOp e .overtaken s
      | .closing => if o.mark then s else returnToActive e (s.modOp e OpRec.marking)
      | .egress => s
    | _, _ => closureTest e c (oweUnlessClosed e s)

/-- The doors that bound a zone, in ascending element number. -/
def State.doorsOf (s : State) (z : ZoneId) : List (ElemId × ElementCfg) :=
  elements.filterMap fun e => (s.elemCfg e).bind fun c => if boundsZone c z then some (e, c) else none

/-- The ETU takes the alarm notice of a zone (R105, R110). -/
def etuAlarm (z : ZoneId) (s : State) : State :=
  (s.doorsOf z).foldl (fun s d => alarmDoor d.1 d.2 s) (s.setAlarmed (s.etu.alarmed ||| zoneBit z))

/-! ### The normal notice at the ETU (R117) -/

/-- The mark leaves an operation (R117). -/
def OpRec.unmark (o : OpRec) : OpRec := { o with mark := false }

/-- One door that bounds the zone that has returned to NORMAL (R117, R60). -/
def normalDoor (e : ElemId) (c : ElementCfg) (s : State) : State :=
  if s.doorAlarmed c then s
  else
    let s := setOwed e false s
    if (s.elem e).activity.inProgress && s.marked e then interlockTest e (s.modOp e OpRec.unmark) else s

/-- The ETU takes the normal notice of a zone (R105, R117). -/
def etuNormal (z : ZoneId) (s : State) : State :=
  (s.doorsOf z).foldl (fun s d => normalDoor d.1 d.2 s) (s.setAlarmed (s.etu.alarmed &&& ~~~zoneBit z))

/-! ### The Zone Unit's requests -/

/-- tCNF of the loaded configuration, in ticks (R98). -/
def State.tCnf (s : State) : Nat := seconds s.cfg.loaded.part.tCnf

/-- Entry into ALARM (R99, step 1). -/
def ZoneRun.alarm (now : Word32) (tCnf : Nat) (p : Port) (_ : ZoneRun) : ZoneRun where
  fire := .alarm
  alarmTime := now
  reporter := some p
  confirm := some tCnf

/-- CONFIRMED, the confirm timer stopped (R100, R101). -/
def ZoneRun.confirmed (z : ZoneRun) : ZoneRun := { z with fire := .confirmed, confirm := none }

/-- The return to NORMAL (R102, step 1). -/
def ZoneRun.normal (z : ZoneRun) : ZoneRun := { z with fire := .normal, confirm := none }

/-- A zone in NORMAL enters ALARM (R99): in SERVICE no notice and no call request is handed on (R105). -/
def enterAlarm (p : Port) (z : ZoneId) (s : State) : State :=
  let s := s.modZone z (ZoneRun.alarm s.time s.tCnf p)
  let s := s.raise .zoneAlarm (zoneByte z) (wordOf p.val)
  if s.cfg.startUp = .run then cscAlarm z (etuAlarm z s) else s

/-- The zones still alarmed, in ascending number (R107). -/
def State.alarmedZones (s : State) : List ZoneId :=
  zoneIds.filter fun z => (s.zoneCfg z).isSome && (s.zone z).alarmed

/-- A zone in ALARM or CONFIRMED returns to NORMAL (R102). -/
def leaveAlarm (p : Port) (z : ZoneId) (s : State) : State :=
  let s := s.modZone z ZoneRun.normal
  let s := s.raise .zoneReset (zoneByte z) (wordOf p.val)
  if s.cfg.startUp = .run then cscNormal z s.alarmedZones (etuNormal z s) else s

/-- The checks of ZONE-ALARM, ZONE-CONFIRM and ZONE-RESET (R99). -/
def zoneRequest (p : Port) (f : Option Byte) (act : ZoneId → State → State × Reply) (s : State) : State × Reply :=
  if s.cfg.startUp = .unconfigured then refuse .mode s
  else if s.role p ≠ .safety then refuse .role s
  else
    match f with
    | none => refuse .form s
    | some b =>
      match s.zone? b with
      | none => refuse .unknown s
      | some (z, _) => act z s

/-- The OK of a zone request gives the fire state after it. -/
def zoneOk (z : ZoneId) (s : State) : State × Reply := answer .ok [(s.zone z).fire.code] s

/-- ZONE-ALARM (R99). -/
def ownZoneAlarm (p : Port) (f : Option Byte) (s : State) : State × Reply :=
  zoneRequest p f (fun z s => if (s.zone z).alarmed then zoneOk z s else zoneOk z (enterAlarm p z s)) s

/-- ZONE-CONFIRM (R100). -/
def ownZoneConfirm (p : Port) (f : Option Byte) (s : State) : State × Reply :=
  zoneRequest p f
    (fun z s =>
      match (s.zone z).fire with
      | .normal => refuse .condition s
      | .alarm => zoneOk z (s.modZone z ZoneRun.confirmed)
      | .confirmed => zoneOk z s) s

/-- ZONE-RESET (R102). -/
def ownZoneReset (p : Port) (f : Option Byte) (s : State) : State × Reply :=
  zoneRequest p f (fun z s => if (s.zone z).alarmed then zoneOk z (leaveAlarm p z s) else zoneOk z s) s

/-- A timer's time left in 4 bytes. -/
def timerBytes (t : Option Nat) : List Byte := bytes32 (BitVec.ofNat 32 (ticksLeft t))

/-- NOT_CONFIGURED, given by ZONE-VIEW with zone 0 alone (spec/09, section 9.12). -/
def notConfigured : Byte := 3

/-- ZONE-VIEW (R103). -/
def ownZoneView (f : Option Byte) (s : State) : State × Reply :=
  if s.cfg.startUp = .unconfigured then refuse .mode s
  else
    match f with
    | none => refuse .form s
    | some b =>
      if b = 0 then
        answer .ok (zoneIds.map fun z => if (s.zoneCfg z).isSome then (s.zone z).fire.code else notConfigured) s
      else
        match s.zone? b with
        | none => refuse .unknown s
        | some (z, c) =>
          let r := s.zone z
          answer .ok
            ([byteOf c.deck, zoneKindCode c.kind, byteOf c.cls, r.fire.code] ++ bytes32 r.alarmTime ++
              [portByte 0xFF r.reporter] ++ timerBytes r.confirm) s

def execZoneAlarm (p : Port) (seq zone : Byte) (s : State) : Result :=
  .next (request p seq 0x40 (ownZoneAlarm p (some zone)) s)
def execZoneConfirm (p : Port) (seq zone : Byte) (s : State) : Result :=
  .next (request p seq 0x41 (ownZoneConfirm p (some zone)) s)
def execZoneReset (p : Port) (seq zone : Byte) (s : State) : Result :=
  .next (request p seq 0x42 (ownZoneReset p (some zone)) s)
def execZoneView (p : Port) (seq zone : Byte) (s : State) : Result :=
  .next (request p seq 0x43 (ownZoneView (some zone)) s)

/-- CONFIRM_TIMER_EXPIRY: tCNF of a zone in ALARM (R101). -/
def execConfirmTimerExpiry (z : ZoneId) (s : State) : Result :=
  .next <|
    if (s.zone z).fire = .alarm ∧ (s.zone z).confirm = some 0 then
      (s.modZone z ZoneRun.confirmed).raise .zoneEscalated (zoneByte z) 0
    else s

end Sys2Proof.Machine
end

