-- ==== Sys2Proof/Machine/Links.lean ====
section
/-!
DEFINITION. Station links: POLL, PART-VIEW and SOFT-RESET (R179, R196), the hand-over of requests to their owners (R173),
reception and supervision (R169, R171, R176, R177), link characters (R171, R172), transmission (R167, R168, R172), and
the end of a commit (R194).
-/

namespace Sys2Proof.Machine

/-! ### POLL, PART-VIEW and SOFT-RESET -/

/-- POLL (R179). -/
def ownPoll (f : Option Unit) (s : State) : State × Reply :=
  match f with
  | none => refuse .form s
  | some () => answer .ok [] s

/-- The data of PART-VIEW (R179; spec/09, section 9.12). -/
def State.partView (s : State) : List Byte :=
  [s.cfg.startUp.code] ++ bytes32 s.time ++ portIds.map (fun p => (s.port p).link.code) ++
    (List.finRange 8).map (fun n => (s.node n).state.code) ++ units.map fun u => (s.unit u).state.code

/-- PART-VIEW (R179). -/
def ownPartView (f : Option Unit) (s : State) : State × Reply :=
  match f with
  | none => refuse .form s
  | some () => answer .ok s.partView s

/-- SOFT-RESET (R196). -/
def ownSoftReset (p : Port) (f : Option Unit) (s : State) : State × Reply :=
  if s.role p ≠ .bridge then refuse .role s
  else
    match f with
    | none => refuse .form s
    | some () => if s.cfg.committing.isSome then refuse .busy s else (s, .softOk)

def execPoll (p : Port) (seq : Byte) (s : State) : Result := .next (request p seq 0x01 (ownPoll (some ())) s)
def execPartView (p : Port) (seq : Byte) (s : State) : Result := .next (request p seq 0x02 (ownPartView (some ())) s)
def execSoftReset (p : Port) (seq : Byte) (s : State) : Result :=
  .next (request p seq 0x03 (ownSoftReset p (some ())) s)

/-! ### Hand-over (R173) -/

/-- The owner of a request code, with the payload as the request's layout reads it; a code outside the request summary
is answered FORM by the SLC itself (R173). -/
def ownerOf (p : Port) (code : Byte) (bs : List Byte) : Owner :=
  match code.toNat with
  | 0x01 => ownPoll (noFields bs)
  | 0x02 => ownPartView (noFields bs)
  | 0x03 => ownSoftReset p (noFields bs)
  | 0x10 => ownView (oneByte bs)
  | 0x11 => ownModify p (modifyFields bs)
  | 0x12 => ownStart p (startFields bs)
  | 0x13 => ownHalt p (oneByte bs)
  | 0x14 => ownResume p (oneByte bs)
  | 0x15 => ownClear p (oneByte bs)
  | 0x16 => ownConsent p bs
  | 0x17 => ownStopAll p (noFields bs)
  | 0x20 => ownClaim p (oneByte bs)
  | 0x21 => ownRelease p (oneByte bs)
  | 0x22 => ownGrant p (twoBytes bs)
  | 0x23 => ownRevoke p (oneByte bs)
  | 0x30 => ownPuClear p (oneByte bs)
  | 0x31 => ownPuView (oneByte bs)
  | 0x40 => ownZoneAlarm p (oneByte bs)
  | 0x41 => ownZoneConfirm p (oneByte bs)
  | 0x42 => ownZoneReset p (oneByte bs)
  | 0x43 => ownZoneView (oneByte bs)
  | 0x50 => ownCall p (callFields bs)
  | 0x51 => ownWithdraw p (oneByte bs)
  | 0x52 => ownCallList (oneByte bs)
  | 0x60 => ownCollect (oneByte bs)
  | 0x61 => ownCollectNext p (noFields bs)
  | 0x62 => ownSetMask p (oneByte bs)
  | 0x63 => ownFetchEvent p (noFields bs)
  | 0x70 => ownCfgWrite p (writeFields bs)
  | 0x71 => ownCfgRead p (twoBytes bs)
  | 0x72 => ownCfgCommit p (noFields bs)
  | _ => refuse .form

/-- The counts at which the throttle acts (R171). -/
def pauseCount : Nat := 6
def continueCount : Nat := 2

/-- A frame leaves the receive FIFO: CONTINUE waits where the throttle is lifted (R171). -/
def PortRec.popRequest (r : PortRec) : PortRec :=
  let rest := r.rx.tail
  if r.throttle ∧ rest.length ≤ continueCount then { r with rx := rest, throttle := false, waiting := some .cont }
  else { r with rx := rest }

/-- Hand on the requests of a port, each when it may be, at most `n` of them (R173). -/
def handOver (p : Port) : Nat → State → State
  | 0, s => s
  | n + 1, s =>
    match (s.port p).rx with
    | [] => s
    | q :: _ =>
      if (s.port p).canHandOn then
        handOver p n (take p q.seq q.code (ownerOf p q.code q.payload) (s.modPort p PortRec.popRequest))
      else s

/-- Hand on what may be handed on. -/
def handOn (p : Port) (s : State) : State := handOver p (s.port p).rx.length s

/-! ### Reception and supervision -/

/-- The port's receiver is read: the port is in use and its driver is off (R167; log 15). -/
def PortRec.listens (r : PortRec) : Bool := r.link ≠ .off && !r.sending

/-- A valid frame makes a DOWN or LOST port UP (R176, steps 1 to 4). -/
def portUp (p : Port) (s : State) : State :=
  let s := s.modPort p fun r => { r with link := .up, silence := some tSil }
  let s := portUpReport p s
  let s := s.raise .linkUp (byteOf p.val) 0
  upAttention s.rpu.masks[p] p s

/-- A valid frame at an UP port restarts the silence timer (R176). -/
def supervise (p : Port) (s : State) : State :=
  if (s.port p).link = .up then s.modPort p fun r => { r with silence := some tSil } else portUp p s

/-- A valid frame joins the receive FIFO, or is discarded where it holds 8; from a count of 6 on PAUSE waits (R171). -/
def PortRec.receive (q : Request) (r : PortRec) : PortRec :=
  let rx := if r.rx.length < rxCapacity then r.rx ++ [q] else r.rx
  if pauseCount ≤ rx.length then { r with rx := rx, throttle := true, waiting := some .pause } else { r with rx := rx }

/-- STATION_FRAME_RECEIVED: a frame closes on port p (R169, R171, R173, R176). -/
def execStationFrameReceived (p : Port) (chars : List LineChar) (s : State) : Result :=
  .next <|
    if (s.port p).listens then
      match receiveStation p chars with
      | some q => handOn p ((supervise p s).modPort p (PortRec.receive q))
      | none => s
    else s

/-- A link character is acted on when the port is UP (R172) and its receiver is read (R167). -/
def PortRec.heeds (r : PortRec) : Bool := r.link = .up && r.listens

/-- PAUSE received (R172): lost while the driver is on (R167). -/
def execPauseReceived (p : Port) (s : State) : Result :=
  .next <| if (s.port p).heeds then s.modPort p fun r => { r with paused := true } else s

/-- CONTINUE received (R172): lost while the driver is on (R167). -/
def execContinueReceived (p : Port) (s : State) : Result :=
  .next <| if (s.port p).heeds then s.modPort p fun r => { r with paused := false } else s

/-! ### Transmission -/

/-- KIND bytes of the frames that the part sends (spec/09, section 9.12). -/
def kindResponse : Byte := 0x02
def kindAttention : Byte := 0x03

/-- The characters of a place's frame on the line (R168, R174, R175). -/
def TxPlace.chars (p : Port) : TxPlace → List Byte
  | .reserved _ _ => []
  | .response seq code payload => stationChars (byteOf p.val) kindResponse seq code payload
  | .attention code payload => stationChars (byteOf p.val) kindAttention 0 code payload
  | .softResetOk seq => stationChars (byteOf p.val) kindResponse seq 0x03 [Answer.ok.code]

/-- The frame at the head of the transmit FIFO that may start: the port is UP with its driver off, no link character
goes ahead, and the paused flag holds back all but a SOFT-RESET's OK (R171, R172, R180). -/
def PortRec.mayStart (r : PortRec) : Option TxPlace :=
  if r.link = .up ∧ r.sending = false ∧ r.waiting = none then
    match r.tx with
    | [] => none
    | t :: _ => if t.isReserved || r.paused && !t.isSoftOk then none else some t
  else none

/-- TX_FRAME_START: the driver is asserted and the head frame goes on the line (R167). -/
def execTxFrameStart (p : Port) (s : State) : Result :=
  .next <|
    match (s.port p).mayStart with
    | some t => s.modPort p fun r => { r with sending := true, txd := t.chars p }
    | none => s

/-- The character of a link character (R168). -/
def LinkChar.byte : LinkChar → Byte
  | .pause => 0x7B
  | .cont => 0x7C

/-- LINK_CHARACTER_SEND: the waiting link character leaves; the paused flag does not hold it back (R171). -/
def execLinkCharacterSend (p : Port) (s : State) : Result :=
  .next <|
    if (s.port p).link = .up ∧ (s.port p).sending = false then
      match (s.port p).waiting with
      | some c => s.modPort p fun r => { r with waiting := none, txd := [c.byte] }
      | none => s
    else s

/-- A frame has left the transmit FIFO: its place is free, and the owed attention is queued where 2 places are free
(R172, R175). -/
def PortRec.frameLeaves (r : PortRec) : PortRec :=
  let r := { r with tx := r.tx.tail, sending := false }
  if r.owed ∧ 2 ≤ r.free then { r with tx := r.tx ++ [.attention attnOwed []], owed := false } else r

/-- TX_FRAME_SENT: the head frame's closing FLAG has been sent (R172); a SOFT-RESET takes effect when its OK has been
sent (R180, R196). -/
def execTxFrameSent (p : Port) (st : Straps) (s : State) : Result :=
  .next <|
    if (s.port p).link = .up ∧ (s.port p).sending then
      if (s.port p).tx.head?.any TxPlace.isSoftOk then softResetEffect p st s
      else handOn p (s.modPort p PortRec.frameLeaves)
    else s

/-- The abort sequence: the escape byte, then FLAG (R168). -/
def abortSequence : List Byte := [0x7D, 0x7E]

/-- The port's line at the loss of its link (R177, steps 1 and 2). -/
def PortRec.lose (r : PortRec) : PortRec :=
  { r with
    link := .lost, rx := [], tx := [], sending := false, paused := false, throttle := false, owed := false
    waiting := none, silence := none, txd := if r.sending then abortSequence else r.txd }

/-- The loss of an UP port's link (R177). -/
def loseLink (p : Port) (s : State) : State :=
  portLostReport p ((s.modPort p PortRec.lose).raise .linkLost (byteOf p.val) 0)

/-- SILENCE_TIMEOUT: tSIL of an UP port (R177); the loss of a port whose SOFT-RESET awaits its effect brings the reset
(R180, R196). -/
def execSilenceTimeout (p : Port) (st : Straps) (s : State) : Result :=
  .next <|
    if (s.port p).link = .up ∧ (s.port p).silence = some 0 then
      if (s.port p).tx.any TxPlace.isSoftOk then softResetEffect p st s else loseLink p s
    else s

/-! ### The end of a commit -/

/-- The answer of CFG-COMMIT (R194). -/
def commitReply : Option (Byte × Byte) → Reply
  | none => .response .ok []
  | some (sect, entry) => .response .condition [sect, entry]

/-- CFG_COMMIT_DONE: the validation ends, the checksum is valid exactly where it passed, and the response is placed where
its place still stands (R173, R174, R194). -/
def execCfgCommitDone (s : State) : Result :=
  .next <|
    match s.cfg.committing with
    | none => s
    | some p =>
      let failed := validate s.cfg.image
      let s := { s with cfg := { s.cfg with committing := none, valid := failed.isNone } }
      handOn p (s.modPort p (PortRec.place 0 (commitReply failed)))

end Sys2Proof.Machine
end

