-- ==== Sys2Proof/Machine/Time.lean ====
section
/-!
DEFINITION. The time base (R197): a tick advances the part time, counts every running timer down, and counts the stage and
motion time of the operations in ACTIVE (R22). What a timer brings when it is due is its own command (log 3).
-/

namespace Sys2Proof.Machine

/-- A timer one tick later: 0 is due and stays due until its expiry is taken (R197; log 3). -/
def tickTimer (t : Option Nat) : Option Nat := t.map (· - 1)

def PortRec.tick (r : PortRec) : PortRec := { r with silence := tickTimer r.silence }

/-- An operation record one tick later (R22, R39, R41). -/
def OpRec.tick (driven : Bool) (o : OpRec) : OpRec :=
  { o with
    motion := if driven then o.motion + 1 else o.motion
    stageTime := if driven then o.stageTime + 1 else o.stageTime
    window := tickTimer o.window
    suspTimer := tickTimer o.suspTimer }

def ElemRun.tick (r : ElemRun) : ElemRun := { r with op := r.op.map (OpRec.tick (r.activity = .active)) }
def AuthRec.tick (r : AuthRec) : AuthRec := { r with orphan := tickTimer r.orphan }
def UnitRun.tick (r : UnitRun) : UnitRun :=
  { r with startTimer := tickTimer r.startTimer, idleTimer := tickTimer r.idleTimer }
def ZoneRun.tick (r : ZoneRun) : ZoneRun := { r with confirm := tickTimer r.confirm }
def CallEntry.tick (e : CallEntry) : CallEntry := { e with timer := tickTimer e.timer }
def PaPort.tick (p : PaPort) : PaPort := { p with timer := tickTimer p.timer }

/-- TIME_BASE_TICK (R197). -/
def tick (s : State) : State :=
  { s with
    time := s.time + 1
    ports := Vector.ofFn fun p => s.ports[p].tick
    etu := { s.etu with
      elems := Vector.ofFn fun e => s.etu.elems[e].tick
      auth := Vector.ofFn fun p => s.etu.auth[p].tick }
    dpm := { s.dpm with units := Vector.ofFn fun u => s.dpm.units[u].tick }
    zones := Vector.ofFn fun z => s.zones[z].tick
    csc := { s.csc with queue := s.csc.queue.map CallEntry.tick, pa := s.csc.pa.tick } }

def execTimeBaseTick (s : State) : Result := .next (tick s)

end Sys2Proof.Machine
end

