-- ==== Sys2Proof/Machine/Dispatch.lean ====
section
/-!
DEFINITION. exec: one arm per command, each a direct call of its meaning.
-/

namespace Sys2Proof.Machine

/-- The effect of a command on everything but the queue. -/
def exec (i : Instr) (s : State) : Host.Outcome State Fault Refusal :=
  match i with
  | .reset straps => Sys2Proof.Machine.execReset straps s
  | .timeBaseTick => Sys2Proof.Machine.execTimeBaseTick s
  | .stationFrameReceived p chars => Sys2Proof.Machine.execStationFrameReceived p chars s
  | .pauseReceived p => Sys2Proof.Machine.execPauseReceived p s
  | .continueReceived p => Sys2Proof.Machine.execContinueReceived p s
  | .txFrameStart p => Sys2Proof.Machine.execTxFrameStart p s
  | .linkCharacterSend p => Sys2Proof.Machine.execLinkCharacterSend p s
  | .txFrameSent p straps => Sys2Proof.Machine.execTxFrameSent p straps s
  | .silenceTimeout p straps => Sys2Proof.Machine.execSilenceTimeout p straps s
  | .poll p seq => Sys2Proof.Machine.execPoll p seq s
  | .partView p seq => Sys2Proof.Machine.execPartView p seq s
  | .softReset p seq => Sys2Proof.Machine.execSoftReset p seq s
  | .view p seq elem => Sys2Proof.Machine.execView p seq elem s
  | .modify p seq f => Sys2Proof.Machine.execModify p seq f s
  | .start p seq f => Sys2Proof.Machine.execStart p seq f s
  | .halt p seq elem => Sys2Proof.Machine.execHalt p seq elem s
  | .resume p seq elem => Sys2Proof.Machine.execResume p seq elem s
  | .clear p seq elem => Sys2Proof.Machine.execClear p seq elem s
  | .consent p seq elems => Sys2Proof.Machine.execConsent p seq elems s
  | .stopAll p seq => Sys2Proof.Machine.execStopAll p seq s
  | .claim p seq elem => Sys2Proof.Machine.execClaim p seq elem s
  | .release p seq elem => Sys2Proof.Machine.execRelease p seq elem s
  | .grant p seq elem target => Sys2Proof.Machine.execGrant p seq elem target s
  | .revoke p seq elem => Sys2Proof.Machine.execRevoke p seq elem s
  | .puClear p seq unit => Sys2Proof.Machine.execPuClear p seq unit s
  | .puView p seq pos => Sys2Proof.Machine.execPuView p seq pos s
  | .zoneAlarm p seq zone => Sys2Proof.Machine.execZoneAlarm p seq zone s
  | .zoneConfirm p seq zone => Sys2Proof.Machine.execZoneConfirm p seq zone s
  | .zoneReset p seq zone => Sys2Proof.Machine.execZoneReset p seq zone s
  | .zoneView p seq zone => Sys2Proof.Machine.execZoneView p seq zone s
  | .confirmTimerExpiry z => Sys2Proof.Machine.execConfirmTimerExpiry z s
  | .call p seq f => Sys2Proof.Machine.execCall p seq f s
  | .withdraw p seq id => Sys2Proof.Machine.execWithdraw p seq id s
  | .callList p seq pos => Sys2Proof.Machine.execCallList p seq pos s
  | .busyRise => Sys2Proof.Machine.execBusyRise s
  | .busyFall => Sys2Proof.Machine.execBusyFall s
  | .paFaultRise => Sys2Proof.Machine.execPaFaultRise s
  | .paFaultFall => Sys2Proof.Machine.execPaFaultFall s
  | .paAnswerTimeout => Sys2Proof.Machine.execPaAnswerTimeout s
  | .paPlayTimeout => Sys2Proof.Machine.execPaPlayTimeout s
  | .paStopTimeout => Sys2Proof.Machine.execPaStopTimeout s
  | .intervalExpiry id => Sys2Proof.Machine.execIntervalExpiry id s
  | .callExpiry id => Sys2Proof.Machine.execCallExpiry id s
  | .collect p seq elem => Sys2Proof.Machine.execCollect p seq elem s
  | .collectNext p seq => Sys2Proof.Machine.execCollectNext p seq s
  | .setMask p seq mask => Sys2Proof.Machine.execSetMask p seq mask s
  | .fetchEvent p seq => Sys2Proof.Machine.execFetchEvent p seq s
  | .cfgWrite p seq f => Sys2Proof.Machine.execCfgWrite p seq f s
  | .cfgRead p seq sect entry => Sys2Proof.Machine.execCfgRead p seq sect entry s
  | .cfgCommit p seq => Sys2Proof.Machine.execCfgCommit p seq s
  | .cfgCommitDone => Sys2Proof.Machine.execCfgCommitDone s
  | .fieldExchangeStart => Sys2Proof.Machine.execFieldExchangeStart s
  | .fieldFrameReceived chars order => Sys2Proof.Machine.execFieldFrameReceived chars order s
  | .fieldAnswerTimeout order => Sys2Proof.Machine.execFieldAnswerTimeout order s
  | .stageTimerExpiry e => Sys2Proof.Machine.execStageTimerExpiry e s
  | .stageLimitExpiry e => Sys2Proof.Machine.execStageLimitExpiry e s
  | .consentWindowExpiry e => Sys2Proof.Machine.execConsentWindowExpiry e s
  | .suspensionTimeout e => Sys2Proof.Machine.execSuspensionTimeout e s
  | .orphanTimeout p => Sys2Proof.Machine.execOrphanTimeout p s
  | .startTimerExpiry u => Sys2Proof.Machine.execStartTimerExpiry u s
  | .idleTimerExpiry u => Sys2Proof.Machine.execIdleTimerExpiry u s

end Sys2Proof.Machine
end

