-- ==== Sys2Proof/Machine/Step.lean ====
section
/-!
DEFINITION. step: the command at the front of the queue is taken, and an empty queue idles (log 21).
-/

namespace Sys2Proof.Machine

/-- One step: the front command acts on the state with the queue's rest; an empty queue changes nothing (log 21). -/
def step (s : State) : Host.Outcome State Fault Refusal :=
  match s.pending with
  | [] => .next s
  | c :: cs => exec c { s with pending := cs }

/-- The state with the command that a word spells put at the front of its queue. -/
def State.withFetchWord (s : State) (nbits w : Nat) : State :=
  match Sys2Proof.decodeTableWord nbits w with
  | some c => { s with pending := c :: s.pending }
  | none => s

end Sys2Proof.Machine
end

