-- ==== Sys2Proof/Safety.lean ====
section
/-!
DEFINITION. What holds of the block at every moment (the invariants that the statements are about), and the words that the
statements share: a request that can be handed on, its answer in the transmit FIFO, and the parts of the state that a
group of commands leaves alone.
-/

namespace Sys2Proof.Machine

/-! ### Invariants -/

/-- The queues keep to their capacities: receive FIFO 8, transmit FIFO 16, event queue 16, call queue 32, preemption
stack 4 (R171, R172, R162, R121). -/
def Bounded (s : State) : Prop :=
  (∀ p, (s.port p).rx.length ≤ rxCapacity ∧ (s.port p).tx.length ≤ txCapacity) ∧
    s.rpu.events.length ≤ eventCapacity ∧ s.csc.queue.length ≤ callCapacity ∧ s.csc.stack.length ≤ stackCapacity

/-- The ETU's alarmed-zone set and the CSC's muted set are the alarmed zones in RUN, and empty otherwise (R105, R128). -/
def AlarmsAgree (s : State) : Prop :=
  (s.cfg.startUp = .run → ∀ z, inZones s.etu.alarmed z = (s.zone z).alarmed) ∧
    (s.cfg.startUp ≠ .run → s.etu.alarmed = 0) ∧ s.csc.muted = s.etu.alarmed

/-- An element has an operation record exactly when its activity is not IDLE (R20). -/
def OpsMatchActivity (s : State) : Prop := ∀ e, (s.elem e).op.isSome ↔ (s.elem e).activity ≠ .idle

/-- No port that is not UP is the HELD holder of any element, and the ETU's link flag is the port's (R62, R63). -/
def HoldersUp (s : State) : Prop :=
  (∀ p, (s.auth p).linkUp = true ↔ (s.port p).link = .up) ∧
    ∀ e p, (s.elem e).hold = .held p → (s.port p).link = .up

/-- A port's orphan timer runs exactly while its orphan set is not empty (R72 to R75). -/
def OrphanTimersRun (s : State) : Prop := ∀ p, (s.auth p).orphan.isSome ↔ ∃ e, (s.elem e).hold = .orphaned p

/-- The weights of the elements holding slots on a power unit sum to at most 2, and a unit holding any slot is SERVING
(R91). -/
def SlotsInCapacity (s : State) : Prop :=
  ∀ u, (s.unit u).used ≤ slotCapacity ∧ ((s.unit u).holders ≠ [] → (s.unit u).state = .serving)

/-- The elements that hold a slot, unit by unit, and then those that wait for one, in queue order (R79, R89). -/
def State.slotUsers (s : State) : List ElemId :=
  (units.flatMap fun u => (s.unit u).holders.map Holder.elem) ++ s.dpm.queue.map Waiter.elem

/-- No element holds two slots, waits twice, or holds and waits at once (R89, R91); one that holds or waits is a powered element
with an operation in progress (R25, R46, R86); and ENDED is pending on no element but one in ENDED (R26, R46, R156). -/
def SlotsHeldOnce (s : State) : Prop :=
  s.slotUsers.Nodup ∧
    (∀ e ∈ s.slotUsers, (s.elem e).activity.inProgress = true ∧ ∃ c, s.elemCfg e = some c ∧ isDoor c = false) ∧
    ∀ e, (s.elem e).pend.ended = true → (s.elem e).activity = .ended

/-- An element is in the report list exactly when its pending set is nonempty, and at most once (R152). -/
def ReportsListed (s : State) : Prop :=
  s.etu.reports.Nodup ∧ ∀ e, e ∈ s.etu.reports ↔ (s.elem e).listed = true

/-- The image that the blocks run on passes the validation of a commit, and so does the held image where its checksum is valid
(R194, R195). -/
def ImagesPass (s : State) : Prop :=
  validate s.cfg.loaded = none ∧ (s.cfg.valid = true → validate s.cfg.image = none)

/-! ### Requests -/

/-- A request of port p is handed on at once: the receive FIFO is empty and R173's conditions hold. -/
def Ready (p : Port) (s : State) : Prop := (s.port p).rx = [] ∧ (s.port p).canHandOn = true

/-- The state with one response placed at the tail of port p's transmit FIFO. -/
def answered (p : Port) (seq code : Byte) (a : Answer) (data : List Byte) (s : State) : State :=
  s.modPort p fun r => { r with tx := r.tx ++ [.response seq code (a.code :: data)] }

/-- Port p's transmit FIFO gained this response, and nothing else but attentions behind it. -/
def Responded (p : Port) (seq code : Byte) (a : Answer) (data : List Byte) (s t : State) : Prop :=
  ∃ rest, (t.port p).tx = (s.port p).tx ++ .response seq code (a.code :: data) :: rest ∧
    ∀ x ∈ rest, ∃ c d, x = .attention c d

/-- A request row as the station sends it: its port, its SEQ and CODE bytes and its payload in the layout of spec/09,
sections 9.10 and 9.12; none for a row that is no request. -/
def requestOf : Instr → Option (Port × Byte × Byte × List Byte)
  | .poll p seq => some (p, seq, 0x01, [])
  | .partView p seq => some (p, seq, 0x02, [])
  | .softReset p seq => some (p, seq, 0x03, [])
  | .view p seq e => some (p, seq, 0x10, [e])
  | .modify p seq f => some (p, seq, 0x11, [f.elem, f.enabled, f.mask, f.cls, f.multipath])
  | .start p seq f => some (p, seq, 0x12, [f.elem, f.kind] ++ bytes32 f.tag ++ [f.cls, f.flags])
  | .halt p seq e => some (p, seq, 0x13, [e])
  | .resume p seq e => some (p, seq, 0x14, [e])
  | .clear p seq e => some (p, seq, 0x15, [e])
  | .consent p seq es => some (p, seq, 0x16, es)
  | .stopAll p seq => some (p, seq, 0x17, [])
  | .claim p seq e => some (p, seq, 0x20, [e])
  | .release p seq e => some (p, seq, 0x21, [e])
  | .grant p seq e q => some (p, seq, 0x22, [e, q])
  | .revoke p seq e => some (p, seq, 0x23, [e])
  | .puClear p seq u => some (p, seq, 0x30, [u])
  | .puView p seq pos => some (p, seq, 0x31, [pos])
  | .zoneAlarm p seq z => some (p, seq, 0x40, [z])
  | .zoneConfirm p seq z => some (p, seq, 0x41, [z])
  | .zoneReset p seq z => some (p, seq, 0x42, [z])
  | .zoneView p seq z => some (p, seq, 0x43, [z])
  | .call p seq f =>
    some (p, seq, 0x50,
      [f.cue, f.level, f.repeats, f.interval] ++ bytes16 f.expiry ++
        [f.cancelKind, f.cancelObject, f.cancelPos, byteOf f.refs.length] ++ f.refs.flatMap fun r => [r.kind, r.arg])
  | .withdraw p seq id => some (p, seq, 0x51, [id])
  | .callList p seq pos => some (p, seq, 0x52, [pos])
  | .collect p seq e => some (p, seq, 0x60, [e])
  | .collectNext p seq => some (p, seq, 0x61, [])
  | .setMask p seq m => some (p, seq, 0x62, [m])
  | .fetchEvent p seq => some (p, seq, 0x63, [])
  | .cfgWrite p seq f => some (p, seq, 0x70, [f.sect, f.entry, f.flags] ++ f.fields)
  | .cfgRead p seq sect entry => some (p, seq, 0x71, [sect, entry])
  | .cfgCommit p seq => some (p, seq, 0x72, [])
  | _ => none

/-- The event queue after an event, as R164 gives it: the event joins the tail of a queue of fewer than 16 entries, with
the part time and its overflow flag clear; otherwise the youngest entry's overflow flag is set. -/
def eventJoined (s : State) (k : EventKind) (source : Byte) (detail : Word16) : List EventEntry :=
  if s.rpu.events.length < 16 then
    s.rpu.events ++ [{ kind := k, source := source, detail := detail, time := s.time, overflow := false }]
  else flagYoungest s.rpu.events

/-- The output image carries these values on an element's bound outputs (R17, R28). -/
def Drives (t : State) (c : ElementCfg) (opens closes locks unlocks warns : Bool) : Prop :=
  let carries := fun (ch : Option Chan) (b : Bool) =>
    ∀ w, ch = some w → (t.node w.node).outputs.getLsbD w.line.val = b
  carries c.driveOpen opens ∧ carries c.driveClose closes ∧ carries c.lock locks ∧ carries c.unlock unlocks ∧
    carries c.warning warns

/-- What the output image carries on a channel (R188). -/
def State.output (s : State) (w : Chan) : Bool := (s.node w.node).outputs.getLsbD w.line.val

/-- The output channels bound to these elements, and as start outputs to these units (R3, R78). -/
def State.outputsOf (s : State) (es : List ElemId) (us : List UnitId) : List Chan :=
  (es.filterMap s.elemCfg).flatMap elementOutputs ++ us.filterMap fun u => (s.unitCfg u).startOut

/-- The output image is written on no other channel than those of these elements and units (R17, R80). -/
def OutputsKept (es : List ElemId) (us : List UnitId) (s t : State) : Prop :=
  ∀ w, w ∉ s.outputsOf es us → t.output w = s.output w

/-- A port after an attention handed to it, by R175: one that is not UP is handed none; where 2 places are free the attention is
queued, or OWED in its place where one is owed; otherwise the port owes one. -/
def PortRec.attended (code : Byte) (payload : List Byte) (r : PortRec) : PortRec :=
  if r.link ≠ .up then r
  else if 14 < r.tx.length then { r with owed := true }
  else { r with tx := r.tx ++ [if r.owed then .attention 0x03 [] else .attention code payload], owed := false }

/-- A port after an event of this kind that joined the event queue (R164). -/
def State.portAfterEvent (s : State) (k : EventKind) (p : Port) : PortRec :=
  if s.role p = .bridge ∨ s.role p = .safety then (s.port p).attended 0x02 [k.code] else s.port p

/-! ### Operations and closures -/

/-- An element after the ending of its operation with a code, by R46: the record keeps its stage, and its reasons (log 9), and
gives up its slot and its timers; the last completion fields take the ending; ENDED is pending. -/
def ElemRun.endedWith (code : Completion) (o : OpRec) (r : ElemRun) : ElemRun :=
  { r with
    activity := .ended
    op := some { o with code := code, slot := none, window := none, suspTimer := none }
    pend := { r.pend with ended := true }
    last :=
      { kind := some o.kind, requester := (match o.requester with | some q => .port q | none => .internal)
        tag := o.tag, cls := o.cls, stage := o.stage, code := code, motion := o.motion } }

/-- A zone closure as it begins on a door (R108): in WARN, with the mark, of requester INTERNAL, and with the closure class of the
lowest-numbered alarmed boundary zone. -/
def State.closureBegun (s : State) (c : ElementCfg) : OpRec where
  kind := .closing
  requester := none
  tag := 0
  cls :=
    match (zoneIds.find? fun z => boundsZone c z && inZones s.etu.alarmed z).bind s.zoneCfg with
    | some z => z.cls
    | none => 0
  stageReport := false
  stage := .warn
  reasons := { consent := false, interlock := false, path := false }
  attempts := 0
  motion := 0
  stageTime := 0
  slot := none
  code := .none
  mark := true
  window := none
  suspTimer := none

/-- A door after a zone closure was created on it (R108): an ENDED record is replaced, with the overrun flag set and ENDED no longer
pending; what the last completion fields held stands. -/
def ElemRun.closing (o : OpRec) (r : ElemRun) : ElemRun :=
  { r with
    activity := .active
    op := some o
    pend := { r.pend with ended := r.pend.ended && decide (r.activity ≠ .ended) }
    overrun := r.overrun || decide (r.activity = .ended) }

/-- The doors that bound a zone. -/
def State.boundedBy (s : State) (z : ZoneId) : List ElemId :=
  elements.filter fun e => (s.elemCfg e).any fun c => boundsZone c z

/-- What the alarm notice of a zone makes of one door that bounds it, row by row of R110's table. `t` is the state after it, whose
alarmed-zone set holds the zone. The flag is set unless the door stands CLOSED, and is otherwise as it was. Where the CLOSE that
receives the mark was SUSPENDED and no other reason is left, it returns to ACTIVE (R60, R42); what the stage then does at once is
left to the rules of its stage. -/
def DoorTakesAlarm (s t : State) (e : ElemId) (c : ElementCfg) : Prop :=
  let r := s.elem e
  let owing : ElemRun := { r with closureOwed := r.closureOwed || decide (r.position ≠ .closed) }
  let moving : Prop := r.position = .opened ∨ r.position = .between
  (r.enabled = false → t.elem e = owing) ∧
    (r.enabled = true → r.activity = .idle ∨ r.activity = .ended →
      (moving → t.elem e = owing.closing (t.closureBegun c)) ∧ (¬ moving → t.elem e = owing)) ∧
    ∀ o, r.op = some o → r.enabled = true → r.activity.inProgress = true →
      (o.kind = .opening →
        (moving → t.elem e = (owing.endedWith .overtaken o).closing (t.closureBegun c)) ∧
        (¬ moving → t.elem e = owing.endedWith .overtaken o)) ∧
      (o.kind = .closing → o.mark = false →
        (r.activity ≠ .suspended ∨ o.reasons.consent = true ∨ o.reasons.path = true →
          t.elem e = { owing with op := some { o with mark := true, reasons := { o.reasons with interlock := false } } }) ∧
        (r.activity = .suspended → o.reasons.consent = false → o.reasons.path = false →
          stageDone o.stage r = false → ¬ (o.stage = .travelClose ∧ s.obstructed c = true) →
          t.elem e = { owing with
            activity := .active
            op := some { o with
              mark := true, suspTimer := none, reasons := { consent := false, interlock := false, path := false } } })) ∧
      (o.kind = .egress ∨ o.kind = .closing ∧ o.mark = true → t.elem e = owing)

/-! ### Alerts -/

/-- The alert reason that the change of one quantity gives, by R9's table: none where nothing changed, and at a first decode none but
CONFLICT (R8). -/
def reasonOfChange {α : Type} [DecidableEq α] (unknown conflict : α) (seen : Bool) (left entered : α) : Option AlertReason :=
  if entered = left then none
  else if entered = conflict then some .conflict
  else if seen = false then none
  else if entered = unknown then some .lost
  else if left = unknown then some .regained
  else some .moved

/-- The reason of the one ALERT that an element at rest takes as its record goes from `r` to `r'`: the first of LOST, CONFLICT,
REGAINED and MOVED that its position or its lock state gives (R9, note 1). -/
def alertDue (c : ElementCfg) (r r' : ElemRun) : Option AlertReason :=
  let position := reasonOfChange .unknown .conflict r.posSeen r.position r'.position
  let lock := if lockBound c then reasonOfChange .unknown .conflict r.lockSeen r.lock r'.lock else none
  [AlertReason.lost, .conflict, .regained, .moved].find? fun x => position = some x || lock = some x

/-- What one notification does to the seen flags and the ALERT of an element that holds no slot and waits for none. An ALERT beside
another sets the overrun flag (said where no ENDED record was replaced by a closure, R108); a disabled element and one whose
operation runs take none (R8, R9 and its notes, R10). -/
def TakesAlert (s t : State) (e : ElemId) (c : ElementCfg) : Prop :=
  let r := s.elem e
  let r' := t.elem e
  let stands : Prop := r'.pend.alert = r.pend.alert ∧ r'.alertReason = r.alertReason
  (r'.position ≠ r.position → r'.posSeen = (r.posSeen || decide (r'.position ≠ .unknown))) ∧
    (lockBound c = true → r'.lock ≠ r.lock → r'.lockSeen = (r.lockSeen || decide (r'.lock ≠ .unknown))) ∧
    (r.enabled = false → stands) ∧
    (s.waits e = none → s.slotOf e = none →
      (r.activity = .active ∨ r.activity = .suspended → stands) ∧
      (r.enabled = true → r.activity = .idle ∨ r.activity = .ended →
        (alertDue c r r' = none → stands) ∧
        (∀ x, alertDue c r r' = some x → r'.pend.alert = true ∧ r'.alertReason = x) ∧
        ((isDoor c = true → lockBound c = false) → r.activity = .idle ∨ r'.activity = .ended →
          r'.overrun = (r.overrun || r.pend.alert && (alertDue c r r').isSome))))

/-! ### Calls inside the part -/

/-- The entry that a new call is made, by R122 and R126. -/
def Csc.newEntry (now : Word32) (n : NewCall) (c : Csc) : CallEntry where
  id := c.nextId
  cue := n.cue
  zones := n.zones
  level := n.level
  repeats := n.repeats
  interval := n.interval
  expiry := if n.expiry = 0 then none else some (now + BitVec.ofNat 32 (100 * n.expiry))
  cancel := n.cancel
  originator := n.originator
  order := c.acceptCount + 1
  state := .queued
  timer := none
  expired := false

/-- The Call Scheduler with that entry at the tail of its queue (R122, R126). -/
def Csc.joined (now : Word32) (n : NewCall) (c : Csc) : Csc :=
  { c with
    queue := c.queue ++ [c.newEntry now n], acceptCount := c.acceptCount + 1
    nextId := if c.nextId = 255 then 1 else c.nextId + 1 }

/-- What the event of one internal call in RUN makes of the Call Scheduler (R125 to R127, R129, R131, R132, R134): merged into the
live entry of its cue, zone set and level; lost where the queue is full; otherwise a new entry, which waits while nothing can start
or the play is as urgent, stops a less urgent play, and starts at once on an idle port where it is more urgent than everything
else that waits. Which expiry is later is read as in log 14. -/
def TakesCall (now : Word32) (n : NewCall) (c d : Csc) : Prop :=
  let fits := fun x : CallEntry => x.cue = n.cue && x.zones = n.zones && x.level = n.level
  let free : ZoneSet := if n.level ≤ 1 then n.zones else n.zones &&& ~~~c.muted
  let rests : Prop := c.pa.state = .fault ∨ c.pa.state = .stopping ∨ c.pa.state = .idle ∧ c.pa.busy = true
  (∀ x, c.live.find? fits = some x → c.pa.state ≠ .idle ∨ c.pa.busy = true →
    d = c.mapEntries fun y =>
      if y.id = x.id then
        let later := laterExpiry now y.expiry (if n.expiry = 0 then none else some (now + BitVec.ofNat 32 (100 * n.expiry)))
        { y with
          repeats := max y.repeats n.repeats, expiry := later, expired := y.expired && decide (later = y.expiry) }
      else y) ∧
    (c.live.find? fits = none → 32 ≤ c.queue.length → c.pa.state ≠ .idle ∨ c.pa.busy = true → d = c) ∧
    (c.live.find? fits = none → c.queue.length < 32 → c.acceptCount ≠ 0xFFFFFFFF → c.nextId ≠ 0 →
      (∀ x ∈ c.live, x.id ≠ c.nextId) →
      (rests → d = c.joined now n) ∧
      (c.pa.state = .idle → c.pa.busy = false → free ≠ 0 → (∀ x ∈ c.stack ++ c.queue, n.level < x.level) →
        d = { c.joined now n with
          queue := c.queue
          slot := some { cue := n.cue, zones := free, entry := some { c.newEntry now n with state := .playing }
                         stopOwed := false }
          pa := { c.pa with
            state := .starting, timer := some 50, cue := n.cue, zones := free, play := true, stop := false } }) ∧
      (c.pa.state = .playing ∨ c.pa.state = .starting →
        let yields : Prop := free ≠ 0 ∧ c.slot.any (fun y => !y.stopOwed && y.entry.any fun x => decide (n.level < x.level))
        (¬ yields → d = c.joined now n) ∧
        (yields → c.pa.state = .playing →
          d = { c.joined now n with pa := { c.pa with state := .stopping, stop := true, timer := some 100 } }) ∧
        (yields → c.pa.state = .starting →
          d = { c.joined now n with slot := c.slot.map fun y => { y with stopOwed := true } })))

/-- The Call Scheduler after the entries with a cancel condition were removed (R140, R141): from the queue and the stack, and from the
play, which is then stopped, in STARTING once BUSY has answered (R132). -/
def Csc.without (cancel : CancelCond) (c : Csc) : Csc :=
  let stays := fun x : CallEntry => decide (x.cancel ≠ cancel)
  let goes := c.playEntry.any fun x => decide (x.cancel = cancel)
  { c with
    queue := c.queue.filter stays
    stack := c.stack.filter stays
    slot := c.slot.map fun y =>
      if goes then { y with entry := none, stopOwed := y.stopOwed || decide (c.pa.state = .starting) } else y
    pa :=
      if goes ∧ c.pa.state = .playing then { c.pa with state := .stopping, stop := true, timer := some 100 } else c.pa }

/-! ### A reset -/

/-- The part after a reset, block by block: what it was before shows only in the image, its checksum, and the levels of
the PA port's inputs (R8, R10, R18, R62, R79, R98, R130, R133, R148, R166, R180, R190, R195). -/
structure Restarted (first : EventKind) (source : Byte) (st : Straps) (s t : State) : Prop where
  time    : t.time = 0
  image   : t.cfg.image = s.cfg.image ∧ t.cfg.valid = s.cfg.valid ∧ t.cfg.committing = none
  startUp : t.cfg.startUp = if st.modeHigh then .service else if s.cfg.valid then .run else .unconfigured
  loaded  : t.cfg.loaded = if s.cfg.valid then s.cfg.image else Image.blank
  ports   : ∀ p, t.port p =
    { role := Straps.roleOf st p, link := if Straps.roleOf st p = .off then .off else .down, rx := [], tx := [], sending := false
      paused := false, throttle := false, owed := false, waiting := none, silence := none, txd := [] }
  elems   : ∀ e, (t.elem e).activity = .idle ∧ (t.elem e).op = none ∧ (t.elem e).hold = .none ∧
    (t.elem e).listed = false ∧ (t.elem e).overrun = false ∧ (t.elem e).closureOwed = false ∧
    (t.elem e).position = .unknown ∧ (t.elem e).posSeen = false ∧ (t.elem e).alertReason = .none ∧
    (t.elem e).last = LastCompletion.empty ∧
    ∀ c, t.elemCfg e = some c → (t.elem e).enabled = c.enabled ∧ (t.elem e).mask = c.mask ∧ (t.elem e).cls = c.cls ∧
      (t.elem e).multipath = c.multipath ∧ (t.elem e).lock = (if lockBound c then .unknown else .none) ∧
      (t.elem e).lockSeen = !lockBound c
  auth    : ∀ p, t.auth p = { linkUp := false, orphan := none }
  etu     : t.etu.alarmed = 0 ∧ t.etu.reports = []
  units   : ∀ u, t.unit u = { state := .off, reason := .none, holders := [], startTimer := none, idleTimer := none }
  queue   : t.dpm.queue = []
  zones   : ∀ z, t.zone z = { fire := .normal, alarmTime := 0, reporter := none, confirm := none }
  calls   : t.csc.queue = [] ∧ t.csc.stack = [] ∧ t.csc.slot = none ∧ t.csc.muted = 0 ∧ t.csc.nextId = 1 ∧
    t.csc.acceptCount = 0
  pa      : t.csc.pa =
    { state := if s.csc.pa.fault ∧ t.cfg.startUp ≠ .unconfigured then .fault else .idle, timer := none, cue := 0
      zones := 0, play := false, stop := false, busy := s.csc.pa.busy, fault := s.csc.pa.fault }
  masks   : ∀ p : Port, t.rpu.masks[p] = t.cfg.loaded.stations[p].mask
  events  : t.rpu.events =
    { kind := first, source := source, detail := 0, time := 0, overflow := false } ::
      ((if t.cfg.startUp = .unconfigured then
          [{ kind := .configBad, source := 0, detail := 0, time := 0, overflow := false }] else []) ++
        if s.csc.pa.fault ∧ t.cfg.startUp ≠ .unconfigured then
          [{ kind := .paFault, source := 0, detail := 4, time := 0, overflow := false }] else [])
  nodes   : ∀ n, t.node n =
    { state := if t.cfg.loaded.nodes[n].isSome then .seeking else .unused, misses := 0, inputs := none, outputs := 0 }
  field   : t.flc.exchange = none ∧ t.flc.served = none ∧ t.flc.driving = false
  pending : t.pending = s.pending

/-! ### What a group of commands leaves alone -/

/-- The port records but for the transmit FIFO and the attention-owed flag. -/
def PortKept (r r' : PortRec) : Prop := r' = { r with tx := r'.tx, owed := r'.owed }

/-- Only the report of an event can have happened: its join or discard, and attentions. -/
structure OnlyReported (s t : State) : Prop where
  time    : t.time = s.time
  cfg     : t.cfg = s.cfg
  ports   : ∀ p, PortKept (s.port p) (t.port p)
  etu     : t.etu = s.etu
  dpm     : t.dpm = s.dpm
  zones   : t.zones = s.zones
  csc     : t.csc = s.csc
  masks   : t.rpu.masks = s.rpu.masks
  flc     : t.flc = s.flc
  pending : t.pending = s.pending

/-- Only the Call Scheduler, the events and the attentions can have changed. -/
structure OnlyCalls (s t : State) : Prop where
  time    : t.time = s.time
  cfg     : t.cfg = s.cfg
  ports   : ∀ p, PortKept (s.port p) (t.port p)
  etu     : t.etu = s.etu
  dpm     : t.dpm = s.dpm
  zones   : t.zones = s.zones
  masks   : t.rpu.masks = s.rpu.masks
  flc     : t.flc = s.flc
  pending : t.pending = s.pending

/-- Only holds, orphan timers and transmit FIFOs can have changed. -/
structure OnlyHolds (s t : State) : Prop where
  time    : t.time = s.time
  cfg     : t.cfg = s.cfg
  ports   : ∀ p, PortKept (s.port p) (t.port p)
  elems   : ∀ e, t.elem e = { s.elem e with hold := (t.elem e).hold }
  links   : ∀ p, (t.auth p).linkUp = (s.auth p).linkUp
  alarmed : t.etu.alarmed = s.etu.alarmed
  reports : t.etu.reports = s.etu.reports
  dpm     : t.dpm = s.dpm
  zones   : t.zones = s.zones
  csc     : t.csc = s.csc
  rpu     : t.rpu = s.rpu
  flc     : t.flc = s.flc
  pending : t.pending = s.pending

/-- A node record but for its output image. -/
def NodeKept (r r' : NodeRun) : Prop := r' = { r with outputs := r'.outputs }

/-- An element record but for its operation: its settings, its decoded inputs and its hold stand. -/
def ElemKept (r r' : ElemRun) : Prop :=
  r' = { r with
    activity := r'.activity, op := r'.op, pend := r'.pend, alertReason := r'.alertReason, overrun := r'.overrun
    last := r'.last, closureOwed := r'.closureOwed }

/-- Only operations, pending kinds and closure-owed flags of elements, the report list, power units, the slot-wait queue,
output images, events and attentions can have changed. -/
structure OnlyMotion (s t : State) : Prop where
  time     : t.time = s.time
  cfg      : t.cfg = s.cfg
  ports    : ∀ p, PortKept (s.port p) (t.port p)
  elems    : ∀ e, ElemKept (s.elem e) (t.elem e)
  auth     : t.etu.auth = s.etu.auth
  alarmed  : t.etu.alarmed = s.etu.alarmed
  zones    : t.zones = s.zones
  csc      : t.csc = s.csc
  masks    : t.rpu.masks = s.rpu.masks
  nodes    : ∀ n, NodeKept (s.node n) (t.node n)
  exchange : t.flc.exchange = s.flc.exchange
  served   : t.flc.served = s.flc.served
  driving  : t.flc.driving = s.flc.driving
  ftxd     : t.flc.ftxd = s.flc.ftxd
  pending  : t.pending = s.pending

end Sys2Proof.Machine
end

