-- ==== Sys2Proof/WellFormed.lean ====
section
/-!
DEFINITION. Which commands can occur on the part's lines. Ports, elements, units and zones are of their own bounded
types; what is left to check is that a request's payload fits the 56 bytes of a frame (spec/09, section 9.12) and that
a station or field frame's characters hold no FLAG, which would have closed it earlier (R169, R181).
-/

namespace Sys2Proof

/-- The largest payload of a frame (R169, LEN). -/
def maxPayload : Nat := 56

/-- No FLAG stands between a frame's flags: it would have closed the frame (R169). -/
def noFlagInside (chars : List LineChar) : Bool :=
  chars.all fun c => c != .byte 0x7E

/-- A command that can occur. -/
def Instr.wellFormed : Instr → Bool
  | .stationFrameReceived _ chars => noFlagInside chars
  | .fieldFrameReceived chars _ => noFlagInside chars
  | .consent _ _ elems => elems.length ≤ maxPayload
  | .call _ _ f => 10 + 2 * f.refs.length ≤ maxPayload
  | .cfgWrite _ _ f => 3 + f.fields.length ≤ maxPayload
  | _ => true

end Sys2Proof
end

