-- ==== Sys2Proof/Certificates/Slice0/Obligations.lean ====
section
/-!
DEFINITION. The statements for the provers. Each is a proposition about exec or step; the words they share stand in
Sys2Proof/Safety.lean. A statement that rests on a choice of the model names its log entry. In every statement a request row
is one request handed on (log 1), and a timer that stands at 0 is one that has reached its interval (log 3).
-/

open Sys2Proof Sys2Proof.Machine

/-! ### The machine -/

/-- A step takes the front command with the queue's rest; an empty queue idles (logs 1, 21: the queue is the model's). -/
def Obligations.StepTakesFrontCommand : Prop :=
  (∀ (c : Instr) (cs : List Instr) (s : State), s.pending = c :: cs → step s = exec c { s with pending := cs }) ∧
    ∀ s : State, s.pending = [] → step s = .next s

/-- Every command ends in a next state, and no command touches the queue (logs 22, 28). -/
def Obligations.EveryCommandCompletes : Prop :=
  ∀ (c : Instr) (s : State), ∃ t, exec c s = .next t ∧ t.pending = s.pending

/-- State.reset, the part that has never been committed and whose MODE strap is high: SERVICE with nothing loaded, the
never-committed image of R192 (PART and STATIONS at their defaults, every channel of a unit unbound, every other section
empty) with its checksum invalid, no port UP, every unit OFF, every node UNUSED, no alarm, no call, POWER_UP alone in the
event queue (R166); a RESET of that part with those straps changes nothing. The straps, the image held and the levels of the
PA inputs are the model's choice (log 5), as is the field driver off (log 31). -/
def Obligations.ResetStateIsBlankService : Prop :=
  State.reset.cfg.startUp = .service ∧ State.reset.cfg.valid = false ∧ State.reset.cfg.committing = none ∧
    State.reset.cfg.image.part = { tPid := 60, tCnf := 120, tEgr := 30 } ∧
    (∀ p : Port, State.reset.cfg.image.stations[p] = { homeDeck := 1, mask := 0xFF }) ∧
    (∀ u : UnitId, State.reset.cfg.image.units[u] = { startOut := none, running := none, fault := none }) ∧
    (∀ n : NodeId, State.reset.cfg.image.nodes[n] = none) ∧ (∀ z : ZoneId, State.reset.cfg.image.zones[z] = none) ∧
    (∀ e : ElemId, State.reset.cfg.image.elements[e] = none) ∧
    (∀ i : Fin 32, State.reset.cfg.image.interlocks[i] = none) ∧
    (∀ i : Fin 16, State.reset.cfg.image.bindings[i] = none) ∧ State.reset.cfg.loaded = State.reset.cfg.image ∧
    State.reset.time = 0 ∧ State.reset.pending = [] ∧ State.reset.etu.reports = [] ∧ State.reset.dpm.queue = [] ∧
    (∀ p, (State.reset.port p).link = .down ∧ (State.reset.port p).rx = [] ∧ (State.reset.port p).tx = []) ∧
    (∀ u, (State.reset.unit u).state = .off) ∧ (∀ z, (State.reset.zone z).fire = .normal) ∧
    (∀ n, (State.reset.node n).state = .unused ∧ (State.reset.node n).inputs = none ∧
      (State.reset.node n).outputs = 0) ∧ State.reset.flc.exchange = none ∧ State.reset.flc.driving = false ∧
    State.reset.csc.live = [] ∧ State.reset.csc.pa.state = .idle ∧
    State.reset.rpu.events = [{ kind := .powerUp, source := 0, detail := 0, time := 0, overflow := false }] ∧
    exec (.reset { modeHigh := true, roleA := 0b1110, roleB := 0b1001 }) State.reset = .next State.reset

/-- RESET restarts every block, by the straps and the checksum (R8, R10, R18, R62, R79, R98, R130, R166, R180, R190, R191, R195). Four
clauses of Restarted are the model's, not those rules': the queue of commands survives (log 22), PnTXD holds nothing, a frame
that the reset cuts off being given no abort sequence (logs 16 and 45), no node counts as served, so that the rotation starts anew (log 32), and FDE is off (log 31). -/
def Obligations.ResetRestartsThePart : Prop :=
  (∀ (st : Straps) (s : State), ∃ t, exec (.reset st) s = .next t ∧ Restarted .powerUp 0 st s t) ∧
    ∀ (st : Straps) (p : Port),
      (st.roleA.getLsbD p = false → st.roleB.getLsbD p = false → Straps.roleOf st p = .off) ∧
      (st.roleA.getLsbD p = false → st.roleB.getLsbD p = true → Straps.roleOf st p = .bridge) ∧
      (st.roleA.getLsbD p = true → st.roleB.getLsbD p = false → Straps.roleOf st p = .deck) ∧
      (st.roleA.getLsbD p = true → st.roleB.getLsbD p = true → Straps.roleOf st p = .safety)

/-- A SOFT-RESET from BRIDGE, with no commit running, is answered OK ahead of every queued frame but one already on the
line, and changes nothing else; it takes effect when that OK has been sent, or at the loss of the port (R180, R196). The
model's, not those rules': the straps read then are the row's operand (log 4), and in Restarted the queue of commands survives
(log 22), PnTXD holds nothing, a frame that the reset cuts off being given no abort sequence (logs 16 and 45), no node counts as
served (log 32) and FDE is off (log 31). -/
def Obligations.SoftResetWaitsForItsOk : Prop :=
  (∀ (p : Port) (seq : Byte) (s : State), Ready p s → s.role p = .bridge → s.cfg.committing = none →
    exec (.softReset p seq) s = .next (s.modPort p fun r =>
      { r with tx :=
          if r.sending then r.tx.take 1 ++ .softResetOk seq :: r.tx.drop 1 else .softResetOk seq :: r.tx })) ∧
  (∀ (p : Port) (seq : Byte) (st : Straps) (s : State) (rest : List TxPlace), (s.port p).link = .up →
    (s.port p).sending = true → (s.port p).tx = .softResetOk seq :: rest →
    ∃ t, exec (.txFrameSent p st) s = .next t ∧ Restarted .softReset (byteOf p.val) st s t) ∧
  ∀ (p : Port) (seq : Byte) (st : Straps) (s : State), (s.port p).link = .up → (s.port p).silence = some 0 →
    .softResetOk seq ∈ (s.port p).tx →
    ∃ t, exec (.silenceTimeout p st) s = .next t ∧ Restarted .softReset (byteOf p.val) st s t

/-- A tick advances the part time, counts every running timer down by one, and counts motion and stage time of the
operations in ACTIVE alone; nothing else changes (R22, R197; the model's choices: a timer at 0 stays due,
log 3, and motion time wraps, log 27). -/
def Obligations.TickCountsTime : Prop :=
  ∀ s : State, ∃ t, exec .timeBaseTick s = .next t ∧ t.time = s.time + 1 ∧
    (∀ e, (t.elem e) = { s.elem e with op := (t.elem e).op } ∧
      ((s.elem e).op = none → (t.elem e).op = none) ∧
      ∀ o, (s.elem e).op = some o → (s.elem e).activity = .active →
        (t.elem e).op = some { o with
          motion := o.motion + 1, stageTime := o.stageTime + 1
          window := o.window.map (· - 1), suspTimer := o.suspTimer.map (· - 1) }) ∧
    (∀ e o, (s.elem e).op = some o → (s.elem e).activity ≠ .active →
      (t.elem e).op = some { o with window := o.window.map (· - 1), suspTimer := o.suspTimer.map (· - 1) }) ∧
    (∀ p, t.port p = { s.port p with silence := (s.port p).silence.map (· - 1) }) ∧
    (∀ p, t.auth p = { s.auth p with orphan := (s.auth p).orphan.map (· - 1) }) ∧
    (∀ u, t.unit u = { s.unit u with
      startTimer := (s.unit u).startTimer.map (· - 1), idleTimer := (s.unit u).idleTimer.map (· - 1) }) ∧
    (∀ z, t.zone z = { s.zone z with confirm := (s.zone z).confirm.map (· - 1) }) ∧
    t.csc = { s.csc with
      queue := s.csc.queue.map fun x => { x with timer := x.timer.map (· - 1) }
      pa := { s.csc.pa with timer := s.csc.pa.timer.map (· - 1) } } ∧
    t.cfg = s.cfg ∧ t.etu.alarmed = s.etu.alarmed ∧ t.etu.reports = s.etu.reports ∧ t.dpm.queue = s.dpm.queue ∧
    t.rpu = s.rpu ∧ t.flc = s.flc ∧ t.pending = s.pending

/-! ### Station links -/

/-- Framing, escaping and CRC agree: the request frame that a station sends to port p, as its characters stand between the
flags, is received as its SEQ, CODE and payload (R168, R169, R170); and on the field line an IN frame of a node's address is
received as its 16 bits (R181, R184). -/
def Obligations.LineFramesRoundTrip : Prop :=
  (∀ (p : Port) (seq code : Byte) (payload : List Byte), payload.length ≤ 56 →
     receiveStation p ((escapeStation (frameBytes (byteOf p.val) 0x01 seq code payload)).map .byte) =
       some { seq := seq, code := code, payload := payload }) ∧
  (∀ (address : Byte) (bits : Word16),
     receiveField address ((escapeField (fieldBytes address 0x02 bits)).map .byte) = some bits)

/-- A valid request frame on an UP port with an empty receive FIFO is its request row, with the silence timer restarted
(R171, R173, R176): every layout of spec/09, section 9.12. -/
def Obligations.FrameIsItsRequestRow : Prop :=
  ∀ (c : Instr) (p : Port) (seq code : Byte) (payload : List Byte) (chars : List LineChar) (s : State),
    c.wellFormed = true → requestOf c = some (p, seq, code, payload) → Ready p s → (s.port p).sending = false →
    (s.port p).throttle = false → receiveStation p chars = some { seq := seq, code := code, payload := payload } →
    exec (.stationFrameReceived p chars) s = exec c (s.modPort p fun r => { r with silence := some 200 })

/-- A frame that fails a check of R169 is discarded: nothing changes, not even the silence timer. The checks are a framing
error, an abort sequence (as it reaches the receiver, log 16), fewer than 7 or more than 63 frame bytes, a CRC that does not
match, a LEN above 56 or unlike the payload's length, the PORT of another port, and a KIND that is not REQUEST. -/
def Obligations.BadFrameDiscarded : Prop :=
  (∀ (p : Port) (chars : List LineChar) (s : State), .framingError ∈ chars →
    exec (.stationFrameReceived p chars) s = .next s) ∧
  (∀ (p : Port) (bs : List Byte) (s : State), 0x7D ∉ bs →
    exec (.stationFrameReceived p (bs.map .byte ++ [.byte 0x7D])) s = .next s) ∧
  (∀ (p q : Port) (seq code : Byte) (payload : List Byte) (s : State), payload.length ≤ 56 → p ≠ q →
    exec (.stationFrameReceived p
      ((escapeStation (frameBytes (byteOf q.val) 0x01 seq code payload)).map .byte)) s = .next s) ∧
  (∀ (p : Port) (bs : List Byte) (s : State), (bs.length < 7 ∨ 63 < bs.length) →
    exec (.stationFrameReceived p ((escapeStation bs).map .byte)) s = .next s) ∧
  ∀ (p : Port) (port kind seq code len hi lo : Byte) (payload : List Byte) (s : State),
    ([hi, lo] ≠ bytes16 (crc ([port, kind, seq, code, len] ++ payload)) ∨ 56 < len.toNat ∨
      len.toNat ≠ payload.length ∨ port ≠ byteOf p.val ∨ kind ≠ 0x01) →
    exec (.stationFrameReceived p
      ((escapeStation ([port, kind, seq, code, len] ++ payload ++ [hi, lo])).map .byte)) s = .next s

/-- A valid frame that cannot be handed on yet joins the receive FIFO, or is discarded where it holds 8; it restarts the
silence timer, and from a count of 6 on PAUSE waits to be sent (R171, R173, R176). -/
def Obligations.FrameWaitsInFifo : Prop :=
  ∀ (p : Port) (chars : List LineChar) (q : Request) (s : State), (s.port p).link = .up → (s.port p).sending = false →
    receiveStation p chars = some q → (s.port p).canHandOn = false →
    exec (.stationFrameReceived p chars) s = .next (s.modPort p fun r =>
      let rx := if r.rx.length < 8 then r.rx ++ [q] else r.rx
      { r with
        rx := rx
        silence := some 200
        throttle := r.throttle || decide (6 ≤ rx.length)
        waiting := if 6 ≤ rx.length then some .pause else r.waiting })

/-- A first POLL makes a DOWN or LOST port UP: its silence timer starts, the ETU's link flag is set, holds still orphaned
by it return, LINK_UP joins the events, and the POLL is answered behind the attentions: that of LINK_UP, where the port's role
is BRIDGE or SAFETY, and one for the oldest report-list entry that its mask admits (R73, R161, R164, R175, R176, R179). -/
def Obligations.FirstFrameBringsPortUp : Prop :=
  ∀ (p : Port) (chars : List LineChar) (seq : Byte) (s : State),
    ((s.port p).link = .down ∨ (s.port p).link = .lost) → (s.port p).sending = false → (s.port p).rx = [] →
    (s.port p).tx = [] → (s.port p).throttle = false →
    receiveStation p chars = some { seq := seq, code := 0x01, payload := [] } →
    ∃ t, exec (.stationFrameReceived p chars) s = .next t ∧ (t.port p).link = .up ∧ (t.port p).silence = some 200 ∧
      (t.port p).rx = [] ∧ (∃ attns, (t.port p).tx = attns ++ [.response seq 0x01 [0x00]] ∧
        ∀ x ∈ attns, ∃ c d, x = .attention c d) ∧
      t.auth p = { linkUp := true, orphan := none } ∧ (∀ q, q ≠ p → t.auth q = s.auth q) ∧
      (∀ e, t.elem e =
        { s.elem e with
          hold := if (s.elem e).hold = .orphaned p ∧ (s.auth p).orphan.isSome then .held p else (s.elem e).hold }) ∧
      t.rpu.events = eventJoined s .linkUp (byteOf p.val) 0 ∧ t.rpu.masks = s.rpu.masks ∧
      (∀ q, q ≠ p → t.port q = if s.rpu.events.length < 16 then s.portAfterEvent .linkUp q else s.port q) ∧
      (let heard : List TxPlace :=
          if (s.role p = .bridge ∨ s.role p = .safety) ∧ s.rpu.events.length < 16 then [.attention 0x02 [4]] else []
        let listed : List TxPlace :=
          match s.etu.reports.find? fun e => maskHas s.rpu.masks[p] (s.elem e).reportClass with
          | some e => [.attention 0x01 [byteOf e.val, byteOf (s.elem e).reportClass, (s.elem e).pend.code]]
          | none => [];
        (s.port p).owed = false → (t.port p).tx = heard ++ listed ++ [.response seq 0x01 [0x00]]) ∧
      t.time = s.time ∧ t.cfg = s.cfg ∧
      t.etu.alarmed = s.etu.alarmed ∧ t.etu.reports = s.etu.reports ∧ t.dpm = s.dpm ∧ t.zones = s.zones ∧
      t.csc = s.csc ∧ t.flc = s.flc ∧ t.pending = s.pending

/-- PAUSE sets and CONTINUE clears the paused flag of an UP port; a port that is not UP acts on neither (R172), and both are
lost while its driver is on (R167). The frame
at the head goes on an idle line when no link character waits and the port is not paused; the paused flag holds back all
but a SOFT-RESET's OK, and a reserved place holds the line back; a waiting link character goes alone, paused or not (R167,
R168, R171, R180). When the closing FLAG has been sent the frame leaves the transmit FIFO and the driver drops; where an
attention is owed and 2 places are free, one ATTENTION(OWED) is queued (R167, R172, R175). Where a request waits in the receive
FIFO it is handed on into the place that has become free, as its request row would be, and CONTINUE waits to be sent where the
throttle was on and the count has fallen to 2 or below; where that was the one place free, the requests behind it stay (R171,
R173). The line as the model holds it is log 16's. -/
def Obligations.LineIsDrivenInTurn : Prop :=
  ((∀ (p : Port) (s : State),
      ((s.port p).link = .up → (s.port p).sending = false →
        exec (.pauseReceived p) s = .next (s.modPort p fun r => { r with paused := true }) ∧
        exec (.continueReceived p) s = .next (s.modPort p fun r => { r with paused := false })) ∧
      (((s.port p).link ≠ .up ∨ (s.port p).sending = true) → exec (.pauseReceived p) s = .next s ∧ exec (.continueReceived p) s = .next s)) ∧
   (∀ (p : Port) (s : State), (s.port p).link = .up → (s.port p).sending = false →
      (∀ t rest, (s.port p).waiting = none → (s.port p).tx = t :: rest → t.isReserved = false →
        ((s.port p).paused = false ∨ t.isSoftOk = true) →
        exec (.txFrameStart p) s = .next (s.modPort p fun r => { r with sending := true, txd := t.chars p })) ∧
      (∀ t rest, (s.port p).tx = t :: rest → (t.isReserved = true ∨ (s.port p).paused = true ∧ t.isSoftOk = false) →
        exec (.txFrameStart p) s = .next s) ∧
      ((s.port p).waiting = some .pause →
        exec (.linkCharacterSend p) s = .next (s.modPort p fun r => { r with waiting := none, txd := [0x7B] })) ∧
      ((s.port p).waiting = some .cont →
        exec (.linkCharacterSend p) s = .next (s.modPort p fun r => { r with waiting := none, txd := [0x7C] })))) ∧
  (∀ (p : Port) (st : Straps) (t : TxPlace) (rest : List TxPlace) (s : State), (s.port p).link = .up →
     (s.port p).sending = true → (s.port p).tx = t :: rest → t.isSoftOk = false → (s.port p).rx = [] →
     exec (.txFrameSent p st) s = .next (s.modPort p fun r =>
       if r.owed ∧ rest.length ≤ 14 then
         { r with tx := rest ++ [.attention 0x03 []], sending := false, owed := false }
       else { r with tx := rest, sending := false })) ∧
  ∀ (p : Port) (st : Straps) (x : TxPlace) (rest : List TxPlace) (q : Request) (qs : List Request) (s : State),
     (s.port p).link = .up → (s.port p).sending = true → (s.port p).tx = x :: rest → x.isSoftOk = false →
     (∀ y ∈ rest, y.isReserved = false) → rest.length ≤ 15 → (s.port p).rx = q :: qs →
     (∀ c : Instr, qs = [] → c.wellFormed = true → requestOf c = some (p, q.seq, q.code, q.payload) →
       exec (.txFrameSent p st) s = exec c (s.modPort p fun r =>
         { r with
           tx := if r.owed ∧ rest.length ≤ 14 then rest ++ [.attention 0x03 []] else rest
           owed := if rest.length ≤ 14 then false else r.owed
           sending := false, rx := [], throttle := false
           waiting := if r.throttle then some .cont else r.waiting })) ∧
     (rest.length = 15 → ∃ t, exec (.txFrameSent p st) s = .next t ∧ (t.port p).rx = qs ∧ (t.port p).sending = false ∧
       (t.port p).throttle = ((s.port p).throttle && decide (2 < qs.length)) ∧
       (t.port p).waiting =
         if (s.port p).throttle = true ∧ qs.length ≤ 2 then some .cont else (s.port p).waiting)

/-- A station silent for tSIL is LOST: its FIFOs empty, its flags clear, a frame on the line is cut off, LINK_LOST is
raised, and its holds are orphaned with a timer of tORP where it had any (R72, R168, R177; the row's straps, log 4, and the
abort sequence on the line, log 16, are the model's). -/
def Obligations.SilenceLosesPort : Prop :=
  ∀ (p : Port) (st : Straps) (s : State), (s.port p).link = .up → (s.port p).silence = some 0 →
    (∀ t ∈ (s.port p).tx, t.isSoftOk = false) →
    ∃ t, exec (.silenceTimeout p st) s = .next t ∧
      t.port p =
        { s.port p with
          link := .lost, rx := [], tx := [], sending := false, paused := false, throttle := false, owed := false
          waiting := none, silence := none
          txd := if (s.port p).sending then [0x7D, 0x7E] else (s.port p).txd } ∧
      (∀ q, q ≠ p → PortKept (s.port q) (t.port q)) ∧
      (t.auth p).linkUp = false ∧
      ((t.auth p).orphan = some 3000 ∧ (∃ e, (t.elem e).hold = .orphaned p) ∨
        (t.auth p).orphan = none ∧ ∀ e, (t.elem e).hold ≠ .orphaned p) ∧
      (∀ q, q ≠ p → t.auth q = s.auth q) ∧
      (∀ e, t.elem e =
        { s.elem e with hold := if (s.elem e).hold = .held p then .orphaned p else (s.elem e).hold }) ∧
      t.rpu.events = eventJoined s .linkLost (byteOf p.val) 0 ∧ t.rpu.masks = s.rpu.masks ∧ t.time = s.time ∧
      t.cfg = s.cfg ∧ t.etu.alarmed = s.etu.alarmed ∧ t.etu.reports = s.etu.reports ∧ t.dpm = s.dpm ∧
      t.zones = s.zones ∧ t.csc = s.csc ∧ t.flc = s.flc ∧ t.pending = s.pending

/-- In UNCONFIGURED every request but POLL, PART-VIEW, FETCH-EVENT and SOFT-RESET is refused MODE and changes nothing
(R195). -/
def Obligations.UnconfiguredRefusesMode : Prop :=
  ∀ (c : Instr) (p : Port) (seq code : Byte) (payload : List Byte) (s : State),
    requestOf c = some (p, seq, code, payload) → code ≠ 0x01 → code ≠ 0x02 → code ≠ 0x03 → code ≠ 0x63 → Ready p s →
    s.cfg.startUp = .unconfigured → exec c s = .next (answered p seq code .mode [] s)

/-! ### Reading the part -/

/-- POLL and PART-VIEW are answered in every mode to a port of any role (R179), VIEW, PU-VIEW, ZONE-VIEW and CALL-LIST in RUN
and SERVICE (R15, R94, R103, R143); ZONE-VIEW with zone 0 gives the fire states of all 16 zones, NOT_CONFIGURED where there is
none; none of them changes anything else. -/
def Obligations.ViewsChangeNothing : Prop :=
  (∀ (p : Port) (seq : Byte) (s : State), Ready p s →
     exec (.poll p seq) s = .next (answered p seq 0x01 .ok [] s) ∧
     exec (.partView p seq) s = .next (answered p seq 0x02 .ok
       ([s.cfg.startUp.code] ++ bytes32 s.time ++
         [(s.port 0).link.code, (s.port 1).link.code, (s.port 2).link.code, (s.port 3).link.code] ++
         [(s.node 0).state.code, (s.node 1).state.code, (s.node 2).state.code, (s.node 3).state.code,
           (s.node 4).state.code, (s.node 5).state.code, (s.node 6).state.code, (s.node 7).state.code] ++
         [(s.unit 0).state.code, (s.unit 1).state.code, (s.unit 2).state.code, (s.unit 3).state.code]) s)) ∧
  (∀ (p : Port) (seq : Byte) (s : State), Ready p s → s.cfg.startUp ≠ .unconfigured →
     (∀ b e c, s.elem? b = some (e, c) →
       exec (.view p seq b) s = .next (answered p seq 0x10 .ok
         (statusRecord e c (s.elem e) ++ [flagBit 0 (s.elem e).enabled, (s.elem e).mask.setWidth 8,
           byteOf (s.elem e).cls, flagBit 0 (s.elem e).multipath]) s) ∧ (statusRecord e c (s.elem e)).length = 39) ∧
     (∀ b, s.elem? b = none → exec (.view p seq b) s = .next (answered p seq 0x10 .unknown [] s)) ∧
     (∀ pos, exec (.puView p seq pos) s = .next (answered p seq 0x31 .ok
       (s.unitView 0 ++ s.unitView 1 ++ s.unitView 2 ++ s.unitView 3 ++
         [byteOf s.dpm.queue.length, byteOf ((s.dpm.queue.drop pos.toNat).take 4).length] ++
         ((s.dpm.queue.drop pos.toNat).take 4).flatMap fun w => [byteOf w.elem.val, byteOf w.weight, w.kind.code]) s)) ∧
     (∀ b z c, s.zone? b = some (z, c) →
       exec (.zoneView p seq b) s = .next (answered p seq 0x43 .ok
         ([byteOf c.deck, zoneKindCode c.kind, byteOf c.cls, (s.zone z).fire.code] ++ bytes32 (s.zone z).alarmTime ++
           [portByte 0xFF (s.zone z).reporter] ++ bytes32 (BitVec.ofNat 32 (ticksLeft (s.zone z).confirm))) s)) ∧
     exec (.zoneView p seq 0) s = .next (answered p seq 0x43 .ok
       ((List.finRange 16).map fun z => if s.zoneCfg z = none then 3 else (s.zone z).fire.code) s) ∧
     (∀ b, b ≠ 0 → s.zone? b = none → exec (.zoneView p seq b) s = .next (answered p seq 0x43 .unknown [] s)) ∧
     ∀ pos, exec (.callList p seq pos) s = .next (answered p seq 0x52 .ok
       ([s.csc.pa.state.code, byteOf s.csc.live.length, byteOf ((s.csc.live.drop pos.toNat).take 2).length] ++
         ((s.csc.live.drop pos.toNat).take 2).flatMap s.callView) s))

/-! ### Deck elements -/

/-- MODIFY from BRIDGE in RUN on an IDLE element with nothing pending. Where enabled does not change the four fields take
the new values and nothing else changes; a disabling MODIFY also drops the hold; an enabling one sets the four fields and
nothing else, but that a door that owes a closure and can take it has it started in the same event (R13, R14, R108, R109; bits
that a field does not use are not read, log 19). -/
def Obligations.ModifyReplacesFourFields : Prop :=
  ∀ (p : Port) (seq : Byte) (f : ModifyFields) (e : ElemId) (c : ElementCfg) (s : State), Ready p s →
    s.cfg.startUp = .run → s.role p = .bridge → s.elem? f.elem = some (e, c) → f.cls.toNat ≤ 7 →
    f.mask.extractLsb' 0 4 &&& ~~~c.installed = 0 → (isDoor c = false → f.mask.extractLsb' 0 4 ≠ 0) →
    (isDoor c = true → f.multipath.getLsbD 0 = false) → (s.elem e).activity = .idle → (s.elem e).listed = false →
    (((s.elem e).enabled = f.enabled.getLsbD 0) →
      exec (.modify p seq f) s = .next (answered p seq 0x11 .ok [] (s.modElem e fun r =>
        { r with mask := f.mask.extractLsb' 0 4, cls := f.cls.toNat, multipath := f.multipath.getLsbD 0 }))) ∧
    ((s.elem e).enabled = true → f.enabled.getLsbD 0 = false →
      ∃ t, exec (.modify p seq f) s = .next t ∧ Responded p seq 0x11 .ok [] s t ∧
        t.elem e = { s.elem e with
          enabled := false, mask := f.mask.extractLsb' 0 4, cls := f.cls.toNat
          multipath := f.multipath.getLsbD 0, hold := .none } ∧
        (∀ d, d ≠ e → t.elem d = s.elem d) ∧
        t.rpu.events = (if isDoor c ∧ (s.elem e).closureOwed ∧ (s.elem e).position ≠ .unknown then
          eventJoined s .doorUnavailable (byteOf e.val) (match s.lowestAlarmed c with
            | some z => wordOf (z.val + 1)
            | none => 0)
          else s.rpu.events) ∧
        t.time = s.time ∧ t.cfg = s.cfg ∧ (∀ q, PortKept (s.port q) (t.port q)) ∧
        (∀ q, (t.auth q).linkUp = (s.auth q).linkUp) ∧ t.etu.alarmed = s.etu.alarmed ∧
        t.etu.reports = s.etu.reports ∧ t.dpm = s.dpm ∧ t.zones = s.zones ∧ t.csc = s.csc ∧
        t.rpu.masks = s.rpu.masks ∧ t.flc = s.flc ∧ t.pending = s.pending) ∧
    ((s.elem e).enabled = false → f.enabled.getLsbD 0 = true →
      let closes : Prop := isDoor c = true ∧ (s.elem e).closureOwed = true ∧
        ((s.elem e).position = .opened ∨ (s.elem e).position = .between)
      (¬ closes → exec (.modify p seq f) s = .next (answered p seq 0x11 .ok [] (s.modElem e fun r =>
        { r with
          enabled := true, mask := f.mask.extractLsb' 0 4, cls := f.cls.toNat, multipath := f.multipath.getLsbD 0 }))) ∧
      (closes → ∃ t, exec (.modify p seq f) s = .next t ∧ Responded p seq 0x11 .ok [] s t ∧
        t.elem e = { s.elem e with
          enabled := true, mask := f.mask.extractLsb' 0 4, cls := f.cls.toNat, multipath := f.multipath.getLsbD 0
          activity := .active, op := some (s.closureBegun c) } ∧
        (∀ d, d ≠ e → t.elem d = s.elem d) ∧ t.time = s.time ∧ t.cfg = s.cfg ∧ (∀ q, PortKept (s.port q) (t.port q)) ∧
        t.etu.auth = s.etu.auth ∧ t.etu.alarmed = s.etu.alarmed ∧ t.etu.reports = s.etu.reports ∧ t.dpm = s.dpm ∧
        t.zones = s.zones ∧ t.csc = s.csc ∧ t.rpu = s.rpu ∧ (∀ n, NodeKept (s.node n) (t.node n)) ∧
        t.flc.exchange = s.flc.exchange ∧ t.flc.served = s.flc.served ∧ t.flc.driving = s.flc.driving ∧
        t.flc.ftxd = s.flc.ftxd ∧ OutputsKept [e] [] s t ∧
        ((elementOutputs c).Nodup → Drives t c false false false false true) ∧ t.pending = s.pending))

/-- The element-record facts of an operation that START begins on an IDLE door (R21, R25): the sender is its requester, and the
last completion fields are emptied; an EGRESS of a door that stands OPEN is in HOLD_OPEN at once (R27, R38). An EGRESS from
SAFETY overtakes the OPEN or CLOSE in progress on its door: that one ends with OVERTAKEN, its record is replaced with the
overrun flag set, ENDED is not pending, and its last completion fields stand (R26). The activity answered is that of
log 10. -/
def Obligations.DoorStartBegins : Prop :=
  (∀ (p : Port) (seq : Byte) (f : StartFields) (e : ElemId) (c : ElementCfg) (k : OpKind) (s : State), Ready p s →
    s.cfg.startUp = .run → s.elem? f.elem = some (e, c) → isDoor c = true → opKind? f.kind = some k →
    f.cls.toNat ≤ 7 → (s.elem e).enabled = true → s.startTest p e c k = none → (s.elem e).activity = .idle →
    ((s.elem e).position = .closed ∧ k ≠ .closing ∨ (s.elem e).position = .between ∨
      (s.elem e).position = .opened ∧ k ≠ .opening) →
    (s.elem e).lock = .none → s.zoneRefuses p c k = false →
    (s.startMark c k = true ∨ s.failingEntry e k = none) →
    ∃ t, exec (.start p seq f) s = .next t ∧ Responded p seq 0x12 .accepted [f.elem, 2] s t ∧ OnlyMotion s t ∧
      OutputsKept [e] [] s t ∧
      t.elem e = { s.elem e with
        activity := .active
        op := some
          { kind := k, requester := some p, tag := f.tag, cls := f.cls.toNat, stageReport := f.flags.getLsbD 0
            stage := if k = .closing then .warn else if (s.elem e).position = .opened then .holdOpen else .travelOpen
            reasons := { consent := false, interlock := false, path := false }, attempts := 0, motion := 0
            stageTime := 0, slot := none, code := .none, mark := isDoor c && decide (k = .closing) && s.doorAlarmed c
            window := none, suspTimer := none }
        pend := { (s.elem e).pend with stage := (s.elem e).pend.stage || f.flags.getLsbD 0 }
        last := LastCompletion.empty } ∧
      (∀ d, d ≠ e → t.elem d = s.elem d) ∧ t.dpm = s.dpm ∧ t.rpu = s.rpu ∧
      ((elementOutputs c).Nodup → Drives t c (decide (k ≠ .closing ∧ (s.elem e).position ≠ .opened)) false false false
        (decide (k = .closing ∨ (s.elem e).position ≠ .opened)))) ∧
  ∀ (p : Port) (seq : Byte) (f : StartFields) (e : ElemId) (c : ElementCfg) (o : OpRec) (s : State), Ready p s →
    s.cfg.startUp = .run → s.role p = .safety → s.elem? f.elem = some (e, c) → isDoor c = true →
    opKind? f.kind = some .egress → f.cls.toNat ≤ 7 → (s.elem e).enabled = true → (s.elem e).op = some o →
    ((s.elem e).activity = .active ∨ (s.elem e).activity = .suspended) → o.kind ≠ .egress →
    ((s.elem e).position = .closed ∨ (s.elem e).position = .between ∨ (s.elem e).position = .opened) →
    (s.elem e).lock = .none → s.failingEntry e .egress = none →
    ∃ t, exec (.start p seq f) s = .next t ∧ Responded p seq 0x12 .accepted [f.elem, 2] s t ∧ OnlyMotion s t ∧
      OutputsKept [e] [] s t ∧
      t.elem e = { s.elem e with
        activity := .active
        op := some
          { kind := .egress, requester := some p, tag := f.tag, cls := f.cls.toNat, stageReport := f.flags.getLsbD 0
            stage := if (s.elem e).position = .opened then .holdOpen else .travelOpen
            reasons := { consent := false, interlock := false, path := false }, attempts := 0, motion := 0
            stageTime := 0, slot := none, code := .none, mark := false, window := none, suspTimer := none }
        pend :=
          { ended := false, stage := (s.elem e).pend.stage || f.flags.getLsbD 0, alert := (s.elem e).pend.alert }
        overrun := true
        last :=
          { kind := some o.kind, requester := (match o.requester with | some q => .port q | none => .internal)
            tag := o.tag, cls := o.cls, stage := o.stage, code := .overtaken, motion := o.motion } } ∧
      (∀ d, d ≠ e → t.elem d = s.elem d) ∧ t.dpm = s.dpm ∧ t.rpu = s.rpu ∧
      ((elementOutputs c).Nodup → Drives t c (decide ((s.elem e).position ≠ .opened)) false false false
        (decide ((s.elem e).position ≠ .opened)))

/-- A START whose target is already reached ends DONE at once, with no stage, and is answered ACCEPTED with activity ENDED; where
the element's outputs are off, as those of an IDLE element are, no output image changes (R25, R28, R46; the activity answered is
log 10's). -/
def Obligations.StartAtTargetIsDone : Prop :=
  ∀ (p : Port) (seq : Byte) (f : StartFields) (e : ElemId) (c : ElementCfg) (k : OpKind) (s : State), Ready p s →
    s.cfg.startUp = .run → s.elem? f.elem = some (e, c) → opKind? f.kind = some k → f.cls.toNat ≤ 7 →
    (s.elem e).enabled = true → s.startTest p e c k = none → (s.elem e).activity = .idle →
    (k = .closing ∧ (s.elem e).position = .closed ∧ ((s.elem e).lock = .locked ∨ (s.elem e).lock = .none) ∨
      k = .opening ∧ (s.elem e).position = .opened ∧ ((s.elem e).lock = .unlocked ∨ (s.elem e).lock = .none)) →
    s.zoneRefuses p c k = false → (s.startMark c k = true ∨ s.failingEntry e k = none) →
    (isDoor c = false → ∃ u, inPath (c.installed &&& (s.elem e).mask) u = true ∧ (s.unit u).state ≠ .fault) →
    (s.elem e).closureOwed = false →
    ∃ t, exec (.start p seq f) s = .next t ∧ Responded p seq 0x12 .accepted [f.elem, 4] s t ∧ OnlyMotion s t ∧
      OutputsKept [e] [] s t ∧
      (t.elem e).activity = .ended ∧ (t.elem e).pend.ended = true ∧
      (∃ o, (t.elem e).op = some o ∧ o.kind = k ∧ o.requester = some p ∧ o.tag = f.tag ∧ o.stage = .none ∧
        o.code = .done ∧ o.motion = 0) ∧
      (t.elem e).last = { kind := some k, requester := .port p, tag := f.tag, cls := f.cls.toNat, stage := .none
                          code := .done, motion := 0 } ∧
      (∀ d, d ≠ e → t.elem d = s.elem d) ∧ t.dpm = s.dpm ∧ t.rpu = s.rpu ∧
      ((∀ w ∈ elementOutputs c, (s.node w.node).outputs.getLsbD w.line.val = false) → t.flc = s.flc)

/-- A START of a powered element with no waiter in the queue and room on a running candidate is granted in the same event:
the unit is SERVING with the element as its last holder and its idle timer stopped, and the operation is ACTIVE in the
stage after PREP, with its consent window open where consent is required (R25, R39, R44, R87, R91). It is answered START_PENDING, the activity
before the grant (log 10). -/
def Obligations.PoweredStartIsGranted : Prop :=
  ∀ (p : Port) (seq : Byte) (f : StartFields) (e : ElemId) (c : ElementCfg) (k : OpKind) (u : UnitId) (s : State),
    Ready p s → s.cfg.startUp = .run → s.elem? f.elem = some (e, c) → isDoor c = false → opKind? f.kind = some k →
    k ≠ .egress → f.cls.toNat ≤ 7 → (s.elem e).enabled = true → s.startTest p e c k = none →
    (s.elem e).activity = .idle → ((s.elem e).position = .closed ∧ k = .opening ∨ (s.elem e).position = .between ∨
      (s.elem e).position = .opened ∧ k = .closing) →
    ((s.elem e).lock = .none ∧ lockBound c = false ∨ (s.elem e).lock = .locked ∧ k = .opening ∧ lockBound c = true ∨
      ((s.elem e).lock = .unlocked ∨ (s.elem e).lock = .midway) ∧ k = .closing ∧ lockBound c = true) →
    s.zoneRefuses p c k = false → s.failingEntry e k = none → s.dpm.queue = [] →
    inPath (c.installed &&& (s.elem e).mask) u = true → c.weight ≤ (s.unit u).free →
    ((s.unit u).state = .serving ∧ (∀ v, v < u → inPath (c.installed &&& (s.elem e).mask) v = true →
        (s.unit v).state = .serving → (s.unit v).free < c.weight) ∨
      (s.unit u).state = .ready ∧ (∀ v, inPath (c.installed &&& (s.elem e).mask) v = true →
        ((s.unit v).state = .serving ∨ v < u ∧ (s.unit v).state = .ready) → (s.unit v).free < c.weight)) →
    ∃ t, exec (.start p seq f) s = .next t ∧ Responded p seq 0x12 .accepted [f.elem, 1] s t ∧ OnlyMotion s t ∧
      OutputsKept [e] [] s t ∧ (t.elem e).activity = .active ∧ (t.elem e).last = LastCompletion.empty ∧
      (∃ o, (t.elem e).op = some o ∧ o.kind = k ∧ o.requester = some p ∧ o.tag = f.tag ∧ o.slot = some u ∧
        o.stage = (if k = .closing then .travelClose else if lockBound c then .unlock else .travelOpen) ∧
        o.window = (if c.consent then some 40 else none) ∧ o.motion = 0 ∧ o.stageTime = 0) ∧
      t.unit u = { s.unit u with
        state := .serving, idleTimer := none
        holders := (s.unit u).holders ++
          [{ elem := e, weight := c.weight, path := c.installed &&& (s.elem e).mask
             multipath := (s.elem e).multipath }] } ∧
      (∀ v, v ≠ u → t.unit v = s.unit v) ∧ t.dpm.queue = [] ∧ (∀ d, d ≠ e → t.elem d = s.elem d) ∧ t.rpu = s.rpu

/-- A START of a powered element with every candidate OFF and no waiter in the queue waits: the element is START_PENDING in
PREP, a START waiter, and its lowest candidate is STARTING with its start timer at tPST (R25, R81, R87, R88; log 10). -/
def Obligations.PoweredStartWaits : Prop :=
  ∀ (p : Port) (seq : Byte) (f : StartFields) (e : ElemId) (c : ElementCfg) (k : OpKind) (u : UnitId) (s : State),
    Ready p s → s.cfg.startUp = .run → s.elem? f.elem = some (e, c) → isDoor c = false → opKind? f.kind = some k →
    k ≠ .egress → f.cls.toNat ≤ 7 → (s.elem e).enabled = true → s.startTest p e c k = none →
    (s.elem e).activity = .idle → ((s.elem e).position = .closed ∧ k = .opening ∨ (s.elem e).position = .between ∨
      (s.elem e).position = .opened ∧ k = .closing) →
    (s.elem e).lock ≠ .unknown → (s.elem e).lock ≠ .conflict → s.zoneRefuses p c k = false →
    s.failingEntry e k = none → s.dpm.queue = [] →
    (∀ v, inPath (c.installed &&& (s.elem e).mask) v = true → (s.unit v).state = .off) →
    inPath (c.installed &&& (s.elem e).mask) u = true →
    (∀ v, v < u → inPath (c.installed &&& (s.elem e).mask) v = false) →
    s.input (s.unitCfg u).running ≠ some true →
    ∃ t, exec (.start p seq f) s = .next t ∧ Responded p seq 0x12 .accepted [f.elem, 1] s t ∧ OnlyMotion s t ∧
      OutputsKept [e] [u] s t ∧ (t.elem e).activity = .startPending ∧
      (∃ o, (t.elem e).op = some o ∧ o.kind = k ∧ o.requester = some p ∧ o.tag = f.tag ∧ o.stage = .prep ∧
        o.slot = none) ∧
      t.dpm.queue = [{ elem := e, weight := c.weight, path := c.installed &&& (s.elem e).mask
                       multipath := (s.elem e).multipath, kind := .start }] ∧
      t.unit u = { s.unit u with state := .starting, startTimer := some 800 } ∧ (∀ v, v ≠ u → t.unit v = s.unit v) ∧
      (∀ d, d ≠ e → t.elem d = s.elem d) ∧ t.rpu = s.rpu ∧
      ∀ w, (s.unitCfg u).startOut = some w → (t.node w.node).outputs.getLsbD w.line.val = true

/-- START is refused ZONE where an alarmed zone forbids it, and INTERLOCK with the lowest failing entry, and then changes
nothing (R23, R53, R116). -/
def Obligations.StartIsRefused : Prop :=
  ∀ (p : Port) (seq : Byte) (f : StartFields) (e : ElemId) (c : ElementCfg) (k : OpKind) (s : State), Ready p s →
    s.cfg.startUp = .run → s.elem? f.elem = some (e, c) → opKind? f.kind = some k → k ≠ .egress → f.cls.toNat ≤ 7 →
    (s.elem e).enabled = true → s.startTest p e c k = none → (s.elem e).activity = .idle →
    ((s.elem e).position = .closed ∨ (s.elem e).position = .between ∨ (s.elem e).position = .opened) →
    (s.elem e).lock ≠ .unknown → (s.elem e).lock ≠ .conflict →
    ((isDoor c = true ∧ k = .opening ∧
        (∃ z, boundsZone c z = true ∧ inZones s.etu.alarmed z = true) ∨
      isDoor c = false ∧ s.role p = .deck ∧ inZones s.etu.alarmed c.homeZone = true) →
      exec (.start p seq f) s = .next (answered p seq 0x12 .zone [] s)) ∧
    (isDoor c = false → inZones s.etu.alarmed c.homeZone = false → ∀ i, s.failingEntry e k = some i →
      exec (.start p seq f) s = .next (answered p seq 0x12 .interlock [byteOf i.val] s))

/-- Position and lock state are decoded from the limit and lock inputs (R5, R6); an interlock entry is satisfied by the
position and the lock state of its prerequisite alone, and the entry that a refusal names is the lowest-numbered unsatisfied
one that applies (R51, R52). -/
def Obligations.DecodedStatesAndInterlocks : Prop :=
  (∀ c o : Option Bool,
    decodePosition c o =
      if c = none ∨ o = none then .unknown
      else if c = some true ∧ o = some true then .conflict
      else if c = some true then .closed
      else if o = some true then .opened
      else .between) ∧
  (∀ l u : Option Bool,
    decodeLock l u =
      if l = none ∨ u = none then .unknown
      else if l = some true ∧ u = some true then .conflict
      else if l = some true then .locked
      else if u = some true then .unlocked
      else .midway) ∧
  (∀ (s : State) (i : InterlockCfg), s.satisfied i = true ↔
    (s.elem i.prerequisite).position = (if i.needOpen then .opened else .closed) ∧
      (s.elem i.prerequisite).lock ≠ .unknown ∧ (i.needLock = .locked → (s.elem i.prerequisite).lock = .locked) ∧
      (i.needLock = .unlocked → (s.elem i.prerequisite).lock = .unlocked)) ∧
  ∀ (s : State) (e : ElemId) (k : OpKind) (i : Fin 32), s.failingEntry e k = some i →
    (∃ c, s.cfg.loaded.interlocks[i] = some c ∧ c.dependent = e ∧
      (c.opKind = .onAny ∨ c.opKind = .onOpen ∧ k = .opening ∨ c.opKind = .onClose ∧ k = .closing) ∧
      s.satisfied c = false) ∧
    ∀ j, j < i → ∀ c, s.cfg.loaded.interlocks[j] = some c → c.dependent = e →
      (c.opKind = .onAny ∨ c.opKind = .onOpen ∧ k = .opening ∨ c.opKind = .onClose ∧ k = .closing) →
      s.satisfied c = true

/-! ### Operations -/

/-- HALT ends an operation in progress with HALTED: the record keeps its stage, and its reasons (log 9), and gives up its slot,
the last completion
fields take the ending, ENDED is pending, a marked ending clears the closure-owed flag, and the outputs are off (R46, R47,
R113). Where an unmarked operation ends on a door that owes a closure and can take it, the closure replaces the ENDED record
in the same event (R109, R115). A waiter leaves the queue. A slot is released: with no waiter, a unit left without a holder is
READY with its idle timer started; a waiter that the unit now has room for is granted in the same event, and its operation is
ACTIVE in the stage after PREP (R44, R46, R90, R91). No output is written but those of the element and of the waiters (R17). -/
def Obligations.HaltEndsTheOperation : Prop :=
  ∀ (p : Port) (seq b : Byte) (e : ElemId) (c : ElementCfg) (o : OpRec) (s : State), Ready p s →
    s.cfg.startUp ≠ .unconfigured → s.elem? b = some (e, c) → (s.elem e).enabled = true → s.haltTest p e c = none →
    (s.elem e).activity.inProgress = true → (s.elem e).op = some o → (o.mark = false ∨ s.role p = .safety) →
    ∃ t, exec (.halt p seq b) s = .next t ∧ Responded p seq 0x13 .ok [] s t ∧ OnlyMotion s t ∧
      OutputsKept (e :: s.dpm.queue.map Waiter.elem) [] s t ∧
      (t.elem e).last =
        { kind := some o.kind, requester := (match o.requester with | some q => .port q | none => .internal)
          tag := o.tag, cls := o.cls, stage := o.stage, code := .halted, motion := o.motion } ∧
      ((o.mark = true ∨ (s.elem e).closureOwed = false) →
        t.elem e = { (s.elem e).endedWith .halted o with closureOwed := false }) ∧
      (o.mark = false → (s.elem e).closureOwed = true → isDoor c = true →
        ((s.elem e).position = .opened ∨ (s.elem e).position = .between) →
        t.elem e = ((s.elem e).endedWith .halted o).closing (s.closureBegun c)) ∧
      (∀ d, ((s.elem d).activity = .idle ∨ (s.elem d).activity = .ended) → t.elem d = s.elem d) ∧
      (s.slotOf e = none → s.waits e = none → t.dpm = s.dpm ∧ t.rpu = s.rpu ∧ (∀ d, d ≠ e → t.elem d = s.elem d)) ∧
      (s.slotOf e = none → s.waits e = none → (o.mark = true ∨ (s.elem e).closureOwed = false) →
        (elementOutputs c).Nodup → Drives t c false false false false false) ∧
      (∀ w, s.slotOf e = none → s.dpm.queue = [w] → w.elem = e → t.dpm = { s.dpm with queue := [] } ∧ t.rpu = s.rpu ∧
        ∀ d, d ≠ e → t.elem d = s.elem d) ∧
      ∀ u, s.slotOf e = some u → (s.unit u).state = .serving → (s.unit u).idleTimer = none →
        let left : List Holder := (s.unit u).holders.filter fun h => h.elem ≠ e
        (s.dpm.queue = [] →
          t.unit u = { s.unit u with
            holders := left, state := if left = [] then .ready else .serving
            idleTimer := if left = [] then some (100 * s.cfg.loaded.part.tPid) else none } ∧
          (∀ v, v ≠ u → t.unit v = s.unit v) ∧ t.dpm.queue = [] ∧ t.rpu = s.rpu ∧
          ∀ d, d ≠ e → t.elem d = s.elem d) ∧
        ∀ (w : Waiter) (d : ElemId) (dc : ElementCfg) (m : OpRec), s.dpm.queue = [w] → w.elem = d → d ≠ e →
          inPath w.path u = true → 1 ≤ w.weight → w.weight + (left.map Holder.weight).sum ≤ 2 →
          s.elemCfg d = some dc → isDoor dc = false → lockBound dc = false → (s.elem d).activity = .startPending →
          (s.elem d).op = some m → m.stage = .prep → m.kind ≠ .egress → s.opFailingEntry d = none →
          ((s.elem d).position = .between ∨ (s.elem d).position = .closed ∧ m.kind = .opening ∨
            (s.elem d).position = .opened ∧ m.kind = .closing) →
          t.unit u = { s.unit u with
            holders :=
              left ++ [{ elem := d, weight := w.weight, path := w.path, multipath := w.multipath }] } ∧
          (∀ v, v ≠ u → t.unit v = s.unit v) ∧ t.dpm.queue = [] ∧ t.rpu = s.rpu ∧
          t.elem d = { s.elem d with
            activity := .active
            op := some { m with
              stage := if m.kind = .closing then .travelClose else .travelOpen
              stageTime := 0, slot := some u, window := if dc.consent then some 40 else m.window }
            pend := { (s.elem d).pend with stage := (s.elem d).pend.stage || m.stageReport } } ∧
          ∀ x, x ≠ e → x ≠ d → t.elem x = s.elem x

/-- A marked operation is kept from every station but SAFETY: HALT of one in progress, and CLEAR of any, are refused ZONE
(R47, R48, R66). The hold test, as RESUME makes it: outside the sender's reach ROLE, an element with no hold NOT_HELD, one
held by another port or orphaned HELD with the state and the port named; where it passes and the operation is not
SUSPENDED, NOT_SUSPENDED (R45, R64, R174). Nothing changes. -/
def Obligations.OperationIsKeptFromOthers : Prop :=
  (∀ (p : Port) (seq b : Byte) (e : ElemId) (c : ElementCfg) (o : OpRec) (s : State), Ready p s →
     s.cfg.startUp ≠ .unconfigured → s.elem? b = some (e, c) → (s.elem e).enabled = true → s.haltTest p e c = none →
     (s.elem e).op = some o → o.mark = true → s.role p ≠ .safety →
     exec (.clear p seq b) s = .next (answered p seq 0x15 .zone [] s) ∧
     ((s.elem e).activity.inProgress = true → exec (.halt p seq b) s = .next (answered p seq 0x13 .zone [] s))) ∧
  (∀ (p : Port) (seq b : Byte) (e : ElemId) (c : ElementCfg) (s : State), Ready p s → s.cfg.startUp ≠ .unconfigured →
     s.elem? b = some (e, c) → (s.elem e).enabled = true →
     (s.reaches p c = false → exec (.resume p seq b) s = .next (answered p seq 0x14 .role [] s)) ∧
     (s.reaches p c = true → (s.elem e).hold = .none →
       exec (.resume p seq b) s = .next (answered p seq 0x14 .notHeld [] s)) ∧
     (∀ q, s.reaches p c = true → (s.elem e).hold = .held q → q ≠ p →
       exec (.resume p seq b) s = .next (answered p seq 0x14 .held [1, byteOf q.val] s)) ∧
     (∀ q, s.reaches p c = true → (s.elem e).hold = .orphaned q →
       exec (.resume p seq b) s = .next (answered p seq 0x14 .held [2, byteOf q.val] s)) ∧
     (s.reaches p c = true → (s.elem e).hold = .held p → (s.elem e).activity ≠ .suspended →
       exec (.resume p seq b) s = .next (answered p seq 0x14 .notSuspended [] s)))

/-- CLEAR returns an element to IDLE from any activity: no operation, nothing pending, no overrun, and no entry in the
report list; the last completion fields, the alert reason and the hold stand, and a marked operation in progress takes the
closure-owed flag with it (R48, R114). A door that still owes a closure and can take it has it created in the same event
(R109). No output is written but those of the element and of the waiters that its slot may go to (R17, R91). -/
def Obligations.ClearReturnsToIdle : Prop :=
  ∀ (p : Port) (seq b : Byte) (e : ElemId) (c : ElementCfg) (s : State), Ready p s →
    s.cfg.startUp ≠ .unconfigured → s.elem? b = some (e, c) → (s.elem e).enabled = true → s.haltTest p e c = none →
    (s.marked e = false ∨ s.role p = .safety) →
    ∃ t, exec (.clear p seq b) s = .next t ∧ Responded p seq 0x15 .ok [] s t ∧ OnlyMotion s t ∧
      OutputsKept (e :: s.dpm.queue.map Waiter.elem) [] s t ∧
      (t.elem e).pend = { ended := false, stage := false, alert := false } ∧ (t.elem e).overrun = false ∧
      (t.elem e).last = (s.elem e).last ∧ (t.elem e).alertReason = (s.elem e).alertReason ∧
      ((s.elem e).activity.inProgress = true ∧ s.marked e = true ∨ (s.elem e).closureOwed = false →
        t.elem e = { s.elem e with
          activity := .idle, op := none, pend := { ended := false, stage := false, alert := false }, overrun := false
          closureOwed := false }) ∧
      (¬ ((s.elem e).activity.inProgress = true ∧ s.marked e = true) → (s.elem e).closureOwed = true →
        isDoor c = true → ((s.elem e).position = .opened ∨ (s.elem e).position = .between) →
        t.elem e = { s.elem e with
          activity := .active, op := some (s.closureBegun c), pend := { ended := false, stage := false, alert := false }
          overrun := false }) ∧
      (∀ d, ((s.elem d).activity = .idle ∨ (s.elem d).activity = .ended) → d ≠ e → t.elem d = s.elem d) ∧
      (ReportsListed s → e ∉ t.etu.reports) ∧
      (s.slotOf e = none → s.waits e = none → t.dpm = s.dpm ∧ t.rpu = s.rpu ∧ ∀ d, d ≠ e → t.elem d = s.elem d)

/-- RESUME from the holder clears INTERLOCK where every applicable entry is satisfied: the operation returns to ACTIVE in
its stage when no other reason is left, and stays SUSPENDED otherwise; an unsatisfied entry refuses it (R42, R45, R58). -/
def Obligations.ResumeClearsInterlock : Prop :=
  ∀ (p : Port) (seq b : Byte) (e : ElemId) (c : ElementCfg) (o : OpRec) (s : State), Ready p s →
    s.cfg.startUp ≠ .unconfigured → s.elem? b = some (e, c) → (s.elem e).enabled = true → s.reaches p c = true →
    (s.elem e).hold = .held p → (s.elem e).activity = .suspended → (s.elem e).op = some o →
    o.reasons.interlock = true →
    (∀ i, s.opFailingEntry e = some i →
      exec (.resume p seq b) s = .next (answered p seq 0x14 .interlock [byteOf i.val] s)) ∧
    (s.opFailingEntry e = none → (o.reasons.consent = true ∨ o.reasons.path = true) →
      exec (.resume p seq b) s = .next (answered p seq 0x14 .ok [] (s.modElem e fun r =>
        { r with op := some { o with reasons := { o.reasons with interlock := false } } }))) ∧
    (s.opFailingEntry e = none → o.reasons.consent = false → o.reasons.path = false →
      stageDone o.stage (s.elem e) = false → ¬ (o.stage = .travelClose ∧ isDoor c = true ∧ s.obstructed c = true) →
      ∃ t, exec (.resume p seq b) s = .next t ∧ Responded p seq 0x14 .ok [] s t ∧ OnlyMotion s t ∧
        OutputsKept [e] [] s t ∧
        t.elem e = { s.elem e with
          activity := .active
          op := some { o with reasons := { consent := false, interlock := false, path := false }, suspTimer := none } } ∧
        (∀ d, d ≠ e → t.elem d = s.elem d) ∧ t.dpm = s.dpm ∧ t.rpu = s.rpu ∧ t.etu.reports = s.etu.reports ∧
        ((elementOutputs c).Nodup → Drives t c (o.stage.drivesOpen) (o.stage.drivesClose) (o.stage.locks)
          (o.stage.unlocks) (o.stage.warns)))

/-- CONSENT from the holder renews the window of each listed operation that needs consent, clears a CONSENT reason, and
ignores every other listed element: what it does at one listed element; then, for a list of up to 8, one result for each in
the order listed, each element taken in the state that the elements before it left; then the whole outcome of a list without
repetition in which no operation returns to ACTIVE. A list of none, or of more than 8, is refused FORM (R40). -/
def Obligations.ConsentRenews : Prop :=
  (∀ (p : Port) (seq b : Byte) (e : ElemId) (c : ElementCfg) (o : OpRec) (s : State), Ready p s →
    s.cfg.startUp ≠ .unconfigured →
    (s.elem? b = some (e, c) → (s.elem e).hold = .held p → c.consent = true → isDoor c = false →
      (s.elem e).op = some o →
      (((s.elem e).activity = .active ∨ (s.elem e).activity = .suspended ∧ o.reasons.consent = false) →
        exec (.consent p seq [b]) s = .next (answered p seq 0x16 .ok [0] (s.modElem e fun r =>
          { r with op := some { o with window := some 40 } }))) ∧
      ((s.elem e).activity = .suspended → o.reasons.consent = true →
        (o.reasons.interlock = true ∨ o.reasons.path = true) →
        exec (.consent p seq [b]) s = .next (answered p seq 0x16 .ok [1] (s.modElem e fun r =>
          { r with op := some { o with window := some 40, reasons := { o.reasons with consent := false } } }))) ∧
      ((s.elem e).activity = .suspended → o.reasons = { consent := true, interlock := false, path := false } →
        stageDone o.stage (s.elem e) = false →
        ∃ t, exec (.consent p seq [b]) s = .next t ∧ Responded p seq 0x16 .ok [1] s t ∧ OnlyMotion s t ∧
          OutputsKept [e] [] s t ∧
          t.elem e = { s.elem e with
            activity := .active
            op := some { o with
              window := some 40, suspTimer := none, reasons := { consent := false, interlock := false, path := false } } } ∧
          (∀ d, d ≠ e → t.elem d = s.elem d) ∧ t.dpm = s.dpm ∧ t.rpu = s.rpu)) ∧
    ((s.elem? b = none ∨ s.elem? b = some (e, c) ∧ ((s.elem e).hold ≠ .held p ∨ (s.elem e).activity = .idle ∨
        (s.elem e).activity = .ended ∨ (s.elem e).activity = .startPending ∨ c.consent = false ∨ isDoor c = true)) →
      exec (.consent p seq [b]) s = .next (answered p seq 0x16 .ok [2] s))) ∧
  ∀ (p : Port) (seq : Byte) (bs : List Byte) (s : State), Ready p s → s.cfg.startUp ≠ .unconfigured →
    ((bs = [] ∨ 8 < bs.length) → exec (.consent p seq bs) s = .next (answered p seq 0x16 .form [] s)) ∧
    (bs ≠ [] → bs.length ≤ 8 →
      exec (.consent p seq bs) s = .next (take p seq 0x16 (fun u =>
        let r := bs.foldl (fun a b => ((consentOne p b a.1).1, a.2 ++ [(consentOne p b a.1).2])) (u, [])
        (r.1, .response .ok r.2)) s) ∧
      let outcome : ElemId → Byte := fun e =>
        match s.elemCfg e, (s.elem e).op with
        | some c, some o =>
          if (s.elem e).hold = .held p ∧ c.consent = true ∧ isDoor c = false then
            if (s.elem e).activity = .active ∨ (s.elem e).activity = .suspended ∧ o.reasons.consent = false then 0
            else if (s.elem e).activity = .suspended then 1
            else 2
          else 2
        | _, _ => 2;
      (bs.Nodup →
        (∀ e, byteOf e.val ∈ bs → outcome e = 1 → ∀ o, (s.elem e).op = some o →
          o.reasons.interlock = true ∨ o.reasons.path = true) →
        exec (.consent p seq bs) s = .next (answered p seq 0x16 .ok
          (bs.map fun b => match s.elem? b with | some (e, _) => outcome e | none => 2)
          { s with etu := { s.etu with elems := Vector.ofFn fun e =>
            let r := s.elem e
            { r with op := r.op.map fun o =>
              { o with
                window := if byteOf e.val ∈ bs ∧ outcome e ≠ 2 then some 40 else o.window
                reasons :=
                  if byteOf e.val ∈ bs ∧ outcome e = 1 then { o.reasons with consent := false } else o.reasons } } } })))

/-- STOP-ALL from BRIDGE halts every powered operation in progress, and answers their number; doors, ENDED operations and
elements without an operation are untouched, and no output is written but those of the operations it ends and of the elements
that waited for a slot (R17, R49; of MODE and ROLE, MODE first: log 12). -/
def Obligations.StopAllHaltsPowered : Prop :=
  ∀ (p : Port) (seq : Byte) (s : State), Ready p s → s.cfg.startUp ≠ .unconfigured → s.role p = .bridge →
    OpsMatchActivity s →
    let halted : List ElemId := (List.finRange 32).filter fun e =>
      (s.elemCfg e).any (fun c => !isDoor c) && (s.elem e).activity.inProgress
    ∃ t n, exec (.stopAll p seq) s = .next t ∧ Responded p seq 0x17 .ok [byteOf n] s t ∧ OnlyMotion s t ∧
      OutputsKept (halted ++ s.dpm.queue.map Waiter.elem) [] s t ∧ n = halted.length ∧
      (∀ e c, s.elemCfg e = some c → isDoor c = false → (s.elem e).activity.inProgress = true →
        (t.elem e).activity = .ended ∧ (t.elem e).pend.ended = true ∧ (t.elem e).last.code = .halted ∧
        ∃ o, (t.elem e).op = some o ∧ o.code = .halted ∧ o.slot = none) ∧
      (∀ e, ((s.elem e).activity = .idle ∨ (s.elem e).activity = .ended) → t.elem e = s.elem e) ∧
      ∀ e c, s.elemCfg e = some c → isDoor c = true → s.waits e = none → t.elem e = s.elem e

/-- A timed stage whose stage time has reached its duration ends, and the next stage of its row is entered: WARN gives
TRAVEL_CLOSE, REVERSE gives RETRY_PAUSE, RETRY_PAUSE and HOLD_OPEN give WARN (R27, R30, R35, R37, R38). A driven stage whose
stage time reaches tLCK or tTRV ends its operation with TIMEOUT, the stage kept (R31, R46); a marked ending raises
CLOSURE_FAILED (R113). No output is written but those of the element, and of the waiters that a slot it ends with may go to
(R17, R91). -/
def Obligations.StageTimersExpire : Prop :=
  (∀ (e : ElemId) (c : ElementCfg) (o : OpRec) (s : State), s.elemCfg e = some c → (s.elem e).op = some o →
     (s.elem e).activity = .active →
     (o.stage = .warn ∧ 100 * c.tWrn ≤ o.stageTime.toNat ∨ o.stage = .reverse ∧ 200 ≤ o.stageTime.toNat ∨
       o.stage = .retryPause ∧ 300 ≤ o.stageTime.toNat ∨
       o.stage = .holdOpen ∧ 100 * s.cfg.loaded.part.tEgr ≤ o.stageTime.toNat) →
     (o.stage = .warn → (s.elem e).position ≠ .closed ∧ ¬ (isDoor c = true ∧ s.obstructed c = true)) →
     ∃ t, exec (.stageTimerExpiry e) s = .next t ∧ OnlyMotion s t ∧ OutputsKept [e] [] s t ∧
       (t.elem e).activity = .active ∧
       (∃ n, (t.elem e).op = some n ∧
         n.stage = (match o.stage with | .warn => .travelClose | .reverse => .retryPause | _ => .warn) ∧
         n.stageTime = 0 ∧ n.motion = o.motion ∧ n.attempts = o.attempts ∧ n.kind = o.kind ∧ n.mark = o.mark) ∧
       (∀ d, d ≠ e → t.elem d = s.elem d) ∧ t.dpm = s.dpm ∧ t.rpu = s.rpu ∧
       ((elementOutputs c).Nodup →
         Drives t c false (decide (o.stage = .warn)) false false (decide (o.stage ≠ .reverse)))) ∧
  (∀ (e : ElemId) (c : ElementCfg) (o : OpRec) (s : State), s.elemCfg e = some c → (s.elem e).op = some o →
     (s.elem e).activity = .active →
     ((o.stage = .unlock ∨ o.stage = .lock) ∧ 100 * c.tLck ≤ o.stageTime.toNat ∨
       (o.stage = .travelOpen ∨ o.stage = .travelClose) ∧ 100 * c.tTrv ≤ o.stageTime.toNat) →
     ∃ t, exec (.stageLimitExpiry e) s = .next t ∧ OnlyMotion s t ∧
       OutputsKept (e :: s.dpm.queue.map Waiter.elem) [] s t ∧
       (t.elem e).last =
         { kind := some o.kind, requester := (match o.requester with | some q => .port q | none => .internal)
           tag := o.tag, cls := o.cls, stage := o.stage, code := .timeout, motion := o.motion } ∧
       ((o.mark = true ∨ (s.elem e).closureOwed = false) → (t.elem e).activity = .ended ∧
         (t.elem e).pend.ended = true ∧ (t.elem e).closureOwed = false) ∧
       (∀ d, ((s.elem d).activity = .idle ∨ (s.elem d).activity = .ended) → t.elem d = s.elem d) ∧
       (s.slotOf e = none → s.waits e = none → t.dpm = s.dpm ∧ (∀ d, d ≠ e → t.elem d = s.elem d) ∧
         t.rpu.masks = s.rpu.masks ∧
         t.rpu.events = if o.mark then eventJoined s .closureFailed (byteOf e.val) 3 else s.rpu.events))

/-- A door whose WARN ends with its obstruction input true, or unknown, counts an attempt at the entry to TRAVEL_CLOSE:
below the third it reverses, or pauses at once where it already stands OPEN; the third ends the operation with OBSTRUCTED in
TRAVEL_CLOSE, and a marked ending raises CLOSURE_FAILED and clears the closure-owed flag (R30, R35, R36, R46, R113). A door
holds no slot and waits for none, by SlotsHeldOnce. -/
def Obligations.ObstructionReversesTheDoor : Prop :=
  ∀ (e : ElemId) (c : ElementCfg) (o : OpRec) (s : State), s.elemCfg e = some c → (s.elem e).op = some o →
    isDoor c = true → (s.elem e).activity = .active → o.stage = .warn → 100 * c.tWrn ≤ o.stageTime.toNat →
    (s.elem e).position ≠ .closed → c.obstruction.isSome = true → s.input c.obstruction ≠ some false →
    s.slotOf e = none → s.waits e = none →
    ∃ t, exec (.stageTimerExpiry e) s = .next t ∧ OnlyMotion s t ∧ OutputsKept [e] [] s t ∧
      (∀ d, d ≠ e → t.elem d = s.elem d) ∧
      t.dpm = s.dpm ∧ t.rpu.masks = s.rpu.masks ∧
      (o.attempts + 1 < 3 → (t.elem e).activity = .active ∧ (t.elem e).last = (s.elem e).last ∧ t.rpu = s.rpu ∧
        (∃ n, (t.elem e).op = some n ∧ n.attempts = o.attempts + 1 ∧ n.stageTime = 0 ∧ n.motion = o.motion ∧
          n.kind = o.kind ∧ n.mark = o.mark ∧
          n.stage = if (s.elem e).position = .opened then .retryPause else .reverse) ∧
        ((elementOutputs c).Nodup →
          Drives t c (decide ((s.elem e).position ≠ .opened)) false false false false)) ∧
      (3 ≤ o.attempts + 1 → (t.elem e).last =
          { kind := some o.kind, requester := (match o.requester with | some q => .port q | none => .internal)
            tag := o.tag, cls := o.cls, stage := .travelClose, code := .obstructed, motion := o.motion } ∧
        t.rpu.events = (if o.mark then eventJoined s .closureFailed (byteOf e.val) 4 else s.rpu.events) ∧
        ((o.mark = true ∨ (s.elem e).closureOwed = false) → (t.elem e).activity = .ended ∧
          (t.elem e).pend.ended = true ∧ (t.elem e).closureOwed = false ∧
          (∃ n, (t.elem e).op = some n ∧ n.attempts = o.attempts + 1 ∧ n.code = .obstructed) ∧
          ((elementOutputs c).Nodup → Drives t c false false false false false)))

/-- A consent window that expires suspends an ACTIVE operation with reason CONSENT and every output off, and adds the reason
to a SUSPENDED one without restarting its suspension timer (R39, R41). A suspension timer that reaches tSUS ends the
operation with ABANDONED, in the stage at which it was suspended (R43); that the ended record keeps its reasons is the model's
choice (log 9). -/
def Obligations.SuspensionFollowsItsTimers : Prop :=
  (∀ (e : ElemId) (c : ElementCfg) (o : OpRec) (s : State), s.elemCfg e = some c → (s.elem e).op = some o →
     o.window = some 0 →
     ((s.elem e).activity = .active ∨ (s.elem e).activity = .suspended) →
     ∃ t, exec (.consentWindowExpiry e) s = .next t ∧ OnlyMotion s t ∧ OutputsKept [e] [] s t ∧
       t.elem e = { s.elem e with
         activity := .suspended
         op := some { o with
           window := none, reasons := { o.reasons with consent := true }
           suspTimer := if (s.elem e).activity = .active then some 3000 else o.suspTimer } } ∧
       (∀ d, d ≠ e → t.elem d = s.elem d) ∧ t.dpm = s.dpm ∧ t.rpu = s.rpu ∧ t.etu.reports = s.etu.reports ∧
       ((elementOutputs c).Nodup → Drives t c false false false false false)) ∧
  (∀ (e : ElemId) (c : ElementCfg) (o : OpRec) (s : State), s.elemCfg e = some c → (s.elem e).op = some o →
     (s.elem e).activity = .suspended → o.suspTimer = some 0 →
     ∃ t, exec (.suspensionTimeout e) s = .next t ∧ OnlyMotion s t ∧
       OutputsKept (e :: s.dpm.queue.map Waiter.elem) [] s t ∧
       (t.elem e).last =
         { kind := some o.kind, requester := (match o.requester with | some q => .port q | none => .internal)
           tag := o.tag, cls := o.cls, stage := o.stage, code := .abandoned, motion := o.motion } ∧
       ((s.elem e).closureOwed = false →
         t.elem e = { s.elem e with
           activity := .ended
           op := some { o with code := .abandoned, slot := none, window := none, suspTimer := none }
           pend := { (s.elem e).pend with ended := true }, last := (t.elem e).last }) ∧
       (∀ d, ((s.elem d).activity = .idle ∨ (s.elem d).activity = .ended) → t.elem d = s.elem d) ∧
       (s.slotOf e = none → s.waits e = none → t.dpm = s.dpm ∧ t.rpu = s.rpu ∧ ∀ d, d ≠ e → t.elem d = s.elem d))

/-! ### Holds -/

/-- CLAIM gives the hold of a free element to the sender; a hold of its own stands; another port's hold refuses it; an
orphaned hold goes to its own port or to BRIDGE (R67, R74). RELEASE gives up the sender's hold, and is answered NOT_HELD for
any other (R68). -/
def Obligations.ClaimAndReleaseMoveTheHold : Prop :=
  (∀ (p : Port) (seq b : Byte) (e : ElemId) (c : ElementCfg) (s : State), Ready p s → s.cfg.startUp = .run →
     s.elem? b = some (e, c) → (s.elem e).enabled = true →
     (s.reaches p c = false → exec (.claim p seq b) s = .next (answered p seq 0x20 .role [] s)) ∧
     (s.reaches p c = true →
       ((s.elem e).hold = .none → exec (.claim p seq b) s =
         .next (answered p seq 0x20 .ok [] (s.modElem e fun r => { r with hold := .held p }))) ∧
       ((s.elem e).hold = .held p → exec (.claim p seq b) s = .next (answered p seq 0x20 .ok [] s)) ∧
       (∀ q, (s.elem e).hold = .held q → q ≠ p →
         exec (.claim p seq b) s = .next (answered p seq 0x20 .held [1, byteOf q.val] s)) ∧
       (∀ q, (s.elem e).hold = .orphaned q → q ≠ p → s.role p ≠ .bridge →
         exec (.claim p seq b) s = .next (answered p seq 0x20 .held [2, byteOf q.val] s)) ∧
       ∀ q, (s.elem e).hold = .orphaned q → (q = p ∨ s.role p = .bridge) →
         ∃ t, exec (.claim p seq b) s = .next t ∧ Responded p seq 0x20 .ok [] s t ∧ OnlyHolds s t ∧
           (t.elem e).hold = .held p ∧ (∀ d, d ≠ e → t.elem d = s.elem d) ∧
           (∀ r, r ≠ q → t.auth r = s.auth r) ∧
           (t.auth q).orphan = if (∃ d, d ≠ e ∧ (s.elem d).hold = .orphaned q) then (s.auth q).orphan else none)) ∧
  (∀ (p : Port) (seq b : Byte) (e : ElemId) (c : ElementCfg) (s : State), Ready p s →
     s.cfg.startUp ≠ .unconfigured → s.elem? b = some (e, c) → (s.elem e).enabled = true →
     ((s.elem e).hold = .held p → exec (.release p seq b) s =
       .next (answered p seq 0x21 .ok [] (s.modElem e fun r => { r with hold := .none }))) ∧
     ((s.elem e).hold ≠ .held p → exec (.release p seq b) s = .next (answered p seq 0x21 .notHeld [] s)))

/-- GRANT from BRIDGE gives the hold to an UP port within reach, from whatever state it was in, and REVOKE from BRIDGE sets
it to NONE; the response names the former hold; an element that leaves a port's orphan set as its last stops that port's
orphan timer (R69, R70, R74). -/
def Obligations.BridgeMovesHolds : Prop :=
  ∀ (p q : Port) (seq b : Byte) (e : ElemId) (c : ElementCfg) (s : State), Ready p s → s.role p = .bridge →
    s.elem? b = some (e, c) → (s.elem e).enabled = true →
    (s.cfg.startUp = .run → (s.auth q).linkUp = true → s.reaches q c = true →
      ∃ t, exec (.grant p seq b (byteOf q.val)) s = .next t ∧
        Responded p seq 0x22 .ok (s.elem e).hold.codes s t ∧ OnlyHolds s t ∧ (t.elem e).hold = .held q ∧
        (∀ d, d ≠ e → t.elem d = s.elem d) ∧
        ∀ r, (t.auth r).orphan = if (s.elem e).hold = .orphaned r ∧ ∀ d, d ≠ e → (s.elem d).hold ≠ .orphaned r then none
          else (s.auth r).orphan) ∧
    (s.cfg.startUp = .run → ((s.auth q).linkUp = false ∨ s.reaches q c = false) →
      exec (.grant p seq b (byteOf q.val)) s = .next (answered p seq 0x22 .condition [] s)) ∧
    (s.cfg.startUp ≠ .unconfigured →
      ∃ t, exec (.revoke p seq b) s = .next t ∧
        Responded p seq 0x23 .ok (s.elem e).hold.codes s t ∧ OnlyHolds s t ∧ (t.elem e).hold = .none ∧
        (∀ d, d ≠ e → t.elem d = s.elem d) ∧
        ∀ r, (t.auth r).orphan = if (s.elem e).hold = .orphaned r ∧ ∀ d, d ≠ e → (s.elem d).hold ≠ .orphaned r then none
          else (s.auth r).orphan)

/-- An orphan timer that reaches tORP drops every hold still orphaned by its port, with one HOLDS_DROPPED (R75). -/
def Obligations.OrphanTimeoutDropsHolds : Prop :=
  ∀ (p : Port) (s : State), (s.auth p).orphan = some 0 →
    ∃ t, exec (.orphanTimeout p) s = .next t ∧
      (∀ e, t.elem e = { s.elem e with
        hold := if (s.elem e).hold = .orphaned p then .none else (s.elem e).hold }) ∧
      t.auth p = { s.auth p with orphan := none } ∧ (∀ q, q ≠ p → t.auth q = s.auth q) ∧
      t.rpu.events = eventJoined s .holdsDropped (byteOf p.val)
        (wordOf ((List.finRange 32).filter fun e => decide ((s.elem e).hold = .orphaned p)).length) ∧
      t.rpu.masks = s.rpu.masks ∧ (∀ q, PortKept (s.port q) (t.port q)) ∧ t.time = s.time ∧ t.cfg = s.cfg ∧
      t.etu.alarmed = s.etu.alarmed ∧ t.etu.reports = s.etu.reports ∧ t.dpm = s.dpm ∧ t.zones = s.zones ∧
      t.csc = s.csc ∧ t.flc = s.flc ∧ t.pending = s.pending

/-! ### Power units -/

/-- PU-CLEAR from BRIDGE returns a unit from FAULT to OFF once every node of its channels is ONLINE and its fault input is
not true; until then it is refused CONDITION with the fault reason; a unit not in FAULT is left alone. With no waiter, no
unit is started (R88, R93; the state that OK gives is log 34's). -/
def Obligations.PuClearReturnsToOff : Prop :=
  ∀ (p : Port) (seq b : Byte) (u : UnitId) (s : State), Ready p s → s.cfg.startUp ≠ .unconfigured →
    s.role p = .bridge → s.unit? b = some u →
    ((s.unit u).state ≠ .fault →
      exec (.puClear p seq b) s = .next (answered p seq 0x30 .ok [(s.unit u).state.code] s)) ∧
    ((s.unit u).state = .fault → (s.unitOnline u = false ∨ s.input (s.unitCfg u).fault = some true) →
      exec (.puClear p seq b) s = .next (answered p seq 0x30 .condition [(s.unit u).reason.code] s)) ∧
    ((s.unit u).state = .fault → s.unitOnline u = true → s.input (s.unitCfg u).fault ≠ some true →
      (s.dpm.queue = [] ∨ s.cfg.startUp = .service) →
      exec (.puClear p seq b) s = .next (answered p seq 0x30 .ok [0]
        (s.modUnit u fun r => { r with state := .off, reason := .none })))

/-- A unit that does not run by tPST enters FAULT with START_FAILED: its timers stop, an element at rest that neither holds
nor waits for it is untouched, and with no holder and no waiter nothing else moves but PU_FAULT and its start output (R82,
R85). A READY unit left idle for tPID enters OFF and its start output goes off (R80, R83). -/
def Obligations.UnitTimersExpire : Prop :=
  (∀ (u : UnitId) (s : State), (s.unit u).state = .starting → (s.unit u).startTimer = some 0 →
     ∃ t, exec (.startTimerExpiry u) s = .next t ∧ OnlyMotion s t ∧
       OutputsKept ((s.unit u).holders.map Holder.elem ++ s.dpm.queue.map Waiter.elem) units s t ∧
       (t.unit u).state = .fault ∧
       (t.unit u).reason = .startFailed ∧
       (∀ e, ((s.elem e).activity = .idle ∨ (s.elem e).activity = .ended) → s.waits e = none →
         (∀ h ∈ (s.unit u).holders, h.elem ≠ e) → t.elem e = s.elem e) ∧
       ((s.unit u).holders = [] → s.dpm.queue = [] →
         t.unit u = { state := .fault, reason := .startFailed, holders := [], startTimer := none, idleTimer := none } ∧
         (∀ v, v ≠ u → t.unit v = s.unit v) ∧ t.dpm.queue = [] ∧ (∀ e, t.elem e = s.elem e) ∧
         OutputsKept [] [u] s t ∧ t.rpu.events = eventJoined s .puFault (byteOf u.val) 1 ∧
         ∀ w, (s.unitCfg u).startOut = some w → (t.node w.node).outputs.getLsbD w.line.val = false)) ∧
  (∀ (u : UnitId) (s : State), (s.unit u).state = .ready → (s.unit u).idleTimer = some 0 →
     ∃ t, exec (.idleTimerExpiry u) s = .next t ∧ OnlyMotion s t ∧ OutputsKept [] [u] s t ∧
       t.unit u = { s.unit u with state := .off, idleTimer := none } ∧ (∀ v, v ≠ u → t.unit v = s.unit v) ∧
       t.dpm.queue = s.dpm.queue ∧ t.etu = s.etu ∧ t.rpu = s.rpu ∧ t.ports = s.ports ∧
       ∀ w, (s.unitCfg u).startOut = some w → (t.node w.node).outputs.getLsbD w.line.val = false)

/-! ### Fire zones -/

/-- ZONE-ALARM of a zone in NORMAL: ALARM with the present part time, the sender and the confirm timer at tCNF, and
ZONE_ALARM raised. In RUN the zone joins the ETU's alarmed set and the CSC's muted set; each door that bounds it is treated by
its row of R110, with DOOR_UNAVAILABLE, naming its lowest alarmed boundary zone, raised exactly for a disabled door whose flag
is newly set and whose position is not UNKNOWN (R112; said where every event found room); and the CSC takes the zone's alarm
call, at level 1, of originator INTERNAL, until the zone is NORMAL again, with CALL_LOST(FULL) where the queue is full (R106; said
where the zone's target references resolve, as a committed image's do). In SERVICE nothing is handed on. A zone already alarmed is
left as it was (R99, R105). The reasons of an ENDED record are log 9's. -/
def Obligations.ZoneAlarmIsTaken : Prop :=
  ∀ (p : Port) (seq b : Byte) (z : ZoneId) (c : ZoneCfg) (s : State), Ready p s → s.role p = .safety →
    s.zone? b = some (z, c) →
    (s.cfg.startUp ≠ .unconfigured → (s.zone z).fire ≠ .normal →
      exec (.zoneAlarm p seq b) s = .next (answered p seq 0x40 .ok [(s.zone z).fire.code] s)) ∧
    (s.cfg.startUp ≠ .unconfigured → (s.zone z).fire = .normal →
      ∃ t, exec (.zoneAlarm p seq b) s = .next t ∧ Responded p seq 0x40 .ok [1] s t ∧
        t.zone z = { fire := .alarm, alarmTime := s.time, reporter := some p
                     confirm := some (100 * s.cfg.loaded.part.tCnf) } ∧
        (∀ y, y ≠ z → t.zone y = s.zone y) ∧
        (∃ more, t.rpu.events.map EventEntry.kind = (eventJoined s .zoneAlarm (zoneByte z) (wordOf p.val)).map
          EventEntry.kind ++ more) ∧
        t.etu.alarmed = (if s.cfg.startUp = .run then s.etu.alarmed ||| zoneBit z else s.etu.alarmed) ∧
        t.csc.muted = (if s.cfg.startUp = .run then s.csc.muted ||| zoneBit z else s.csc.muted) ∧
        (∀ e, (t.elem e).hold = (s.elem e).hold ∧ (t.elem e).position = (s.elem e).position) ∧
        (∀ d, (∀ dc, s.elemCfg d = some dc → boundsZone dc z = false) → t.elem d = s.elem d) ∧
        (s.cfg.startUp = .run → ∀ e dc, s.elemCfg e = some dc → boundsZone dc z = true → DoorTakesAlarm s t e dc ∧
          (t.rpu.events.length < 16 →
            ({ kind := .doorUnavailable, source := byteOf e.val, time := s.time, overflow := false
               detail := (match t.lowestAlarmed dc with
                | some y => wordOf (y.val + 1)
                | none => 0) } ∈ t.rpu.events.drop s.rpu.events.length ↔
              (s.elem e).enabled = false ∧ (s.elem e).closureOwed = false ∧ (s.elem e).position ≠ .closed ∧
                (s.elem e).position ≠ .unknown))) ∧
        (s.cfg.startUp = .run → ∀ set, resolveRefs s.cfg.loaded { homeDeck := some c.deck, trigger := some z }
            (c.refs.take c.nRefs) = some set →
          let call : NewCall :=
            { cue := c.cue, zones := set, level := 1, repeats := c.repeats, interval := c.interval, expiry := 0
              cancel := .zoneNormal z, originator := none }
          TakesCall s.time call { s.csc with muted := s.csc.muted ||| zoneBit z } t.csc ∧
          (t.rpu.events.length < 16 →
            ({ kind := .callLost, source := 0, time := s.time, overflow := false
               detail := (1 : Byte) ++ c.cue } ∈ t.rpu.events.drop s.rpu.events.length ↔
              32 ≤ s.csc.queue.length ∧ ∀ x ∈ s.csc.live, ¬ (x.cue = c.cue ∧ x.zones = set ∧ x.level = 1)))) ∧
        (s.cfg.startUp = .service → t.etu = s.etu ∧ t.csc = s.csc ∧ t.flc = s.flc ∧
          t.rpu.events = eventJoined s .zoneAlarm (zoneByte z) (wordOf p.val)) ∧
        OutputsKept (s.boundedBy z) [] s t ∧ (∀ n, NodeKept (s.node n) (t.node n)) ∧
        t.flc.exchange = s.flc.exchange ∧ t.flc.served = s.flc.served ∧ t.flc.driving = s.flc.driving ∧
        t.flc.ftxd = s.flc.ftxd ∧ (∀ q, PortKept (s.port q) (t.port q)) ∧ t.time = s.time ∧ t.cfg = s.cfg ∧
        t.etu.auth = s.etu.auth ∧ t.dpm = s.dpm ∧ t.rpu.masks = s.rpu.masks ∧ t.pending = s.pending)

/-- ZONE-CONFIRM, by R100: refused MODE in UNCONFIGURED, ROLE from a port that is not SAFETY, UNKNOWN for a zone that is not
configured, CONDITION in NORMAL; in ALARM the zone becomes CONFIRMED and its confirm timer stops; in CONFIRMED nothing
changes; OK gives the fire state after the request. -/
def Obligations.ZoneConfirmOutcomes : Prop :=
  ∀ (p : Port) (seq b : Byte) (s : State), Ready p s →
    (s.cfg.startUp = .unconfigured →
      exec (.zoneConfirm p seq b) s = .next (answered p seq 0x41 .mode [] s)) ∧
    (s.cfg.startUp ≠ .unconfigured → s.role p ≠ .safety →
      exec (.zoneConfirm p seq b) s = .next (answered p seq 0x41 .role [] s)) ∧
    (s.cfg.startUp ≠ .unconfigured → s.role p = .safety →
      ((b = 0 ∨ 16 < b.toNat ∨ ∃ z : ZoneId, z.val + 1 = b.toNat ∧ s.zoneCfg z = none) →
        exec (.zoneConfirm p seq b) s = .next (answered p seq 0x41 .unknown [] s)) ∧
      ∀ z : ZoneId, z.val + 1 = b.toNat → (s.zoneCfg z).isSome = true →
        ((s.zone z).fire = .normal →
          exec (.zoneConfirm p seq b) s = .next (answered p seq 0x41 .condition [] s)) ∧
        ((s.zone z).fire = .alarm →
          exec (.zoneConfirm p seq b) s = .next (answered p seq 0x41 .ok [2]
            (s.modZone z fun r => { r with fire := .confirmed, confirm := none }))) ∧
        ((s.zone z).fire = .confirmed →
          exec (.zoneConfirm p seq b) s = .next (answered p seq 0x41 .ok [2] s)))

/-- ZONE-RESET of an alarmed zone: NORMAL, the confirm timer stopped, the alarm time and the reporting port as they stood,
and ZONE_RESET raised; in RUN the zone leaves the alarmed and the muted sets; a zone in NORMAL is left as it was (R102,
R105, R117). The calls that ended with the zone's alarm are removed, with a stop to the play of one (R141); a QUEUED entry that
the unmuting makes playable stops a less urgent play (R128, R134). With no other zone alarmed nothing is called again; with one
other alarmed, its alarm call is made again (R107), said where every call of the queue was playable before. -/
def Obligations.ZoneResetReturnsToNormal : Prop :=
  ∀ (p : Port) (seq b : Byte) (z : ZoneId) (c : ZoneCfg) (s : State), Ready p s → s.role p = .safety →
    s.zone? b = some (z, c) → s.cfg.startUp ≠ .unconfigured →
    ((s.zone z).fire = .normal → exec (.zoneReset p seq b) s = .next (answered p seq 0x42 .ok [0] s)) ∧
    ((s.zone z).fire ≠ .normal →
      ∃ t, exec (.zoneReset p seq b) s = .next t ∧ Responded p seq 0x42 .ok [0] s t ∧
        t.zone z = { s.zone z with fire := .normal, confirm := none } ∧ (∀ y, y ≠ z → t.zone y = s.zone y) ∧
        t.etu.alarmed = (if s.cfg.startUp = .run then s.etu.alarmed &&& ~~~zoneBit z else s.etu.alarmed) ∧
        t.csc.muted = (if s.cfg.startUp = .run then s.csc.muted &&& ~~~zoneBit z else s.csc.muted) ∧
        (∃ more, t.rpu.events.map EventEntry.kind = (eventJoined s .zoneReset (zoneByte z) (wordOf p.val)).map
          EventEntry.kind ++ more) ∧
        (∀ d, (∀ dc, s.elemCfg d = some dc → boundsZone dc z = false) → t.elem d = s.elem d) ∧
        (s.cfg.startUp = .run → ∀ e dc, s.elemCfg e = some dc → boundsZone dc z = true →
          (∀ y, y ≠ z → boundsZone dc y = true → inZones s.etu.alarmed y = false) →
          (t.elem e).closureOwed = false ∧
            ((s.elem e).activity.inProgress = true → ∀ o, (t.elem e).op = some o → o.mark = false)) ∧
        (s.cfg.startUp = .run →
          let left : Csc :=
            { s.csc.without (.zoneNormal z) with muted := s.csc.muted &&& ~~~zoneBit z }
          let others : Prop := ∃ y, y ≠ z ∧ s.zoneCfg y ≠ none ∧ (s.zone y).fire ≠ .normal
          ((∀ x ∈ s.csc.queue, x.level ≤ 1 ∨ x.zones &&& ~~~s.csc.muted ≠ 0) →
            (¬ others → s.csc.pa.state ≠ .idle ∨ s.csc.pa.busy = true ∨ left.live = [] → t.csc = left) ∧
            ∀ y yc set, y ≠ z → s.zoneCfg y = some yc → (s.zone y).fire ≠ .normal →
              (∀ x, x ≠ y → x ≠ z → s.zoneCfg x ≠ none → (s.zone x).fire = .normal) →
              resolveRefs s.cfg.loaded { homeDeck := some yc.deck, trigger := some y } (yc.refs.take yc.nRefs) = some set →
              TakesCall s.time
                { cue := yc.cue, zones := set, level := 1, repeats := yc.repeats, interval := yc.interval, expiry := 0
                  cancel := .zoneNormal y, originator := none } left t.csc) ∧
          ∀ y x q, ¬ others → s.csc.pa.state = .playing → s.csc.slot = some y → y.entry = some x →
            x.cancel ≠ .zoneNormal z → y.stopOwed = false → q ∈ left.queue → q.state = .queued → q.level < x.level →
            1 < q.level → q.zones &&& ~~~s.csc.muted = 0 → q.zones &&& ~~~left.muted ≠ 0 →
            t.csc = { left with pa := { s.csc.pa with state := .stopping, stop := true, timer := some 100 } }) ∧
        (s.cfg.startUp = .service → t.etu = s.etu ∧ t.csc = s.csc ∧ t.flc = s.flc ∧
          t.rpu.events = eventJoined s .zoneReset (zoneByte z) (wordOf p.val)) ∧
        OutputsKept (s.boundedBy z) [] s t ∧ (∀ n, NodeKept (s.node n) (t.node n)) ∧
        t.flc.exchange = s.flc.exchange ∧ t.flc.served = s.flc.served ∧ t.flc.driving = s.flc.driving ∧
        t.flc.ftxd = s.flc.ftxd ∧ (∀ q, PortKept (s.port q) (t.port q)) ∧ t.time = s.time ∧ t.cfg = s.cfg ∧
        t.etu.auth = s.etu.auth ∧ t.dpm = s.dpm ∧ t.rpu.masks = s.rpu.masks ∧ t.pending = s.pending)

/-- A zone's confirm timer that reaches tCNF, by R101: it runs in ALARM alone, which every step keeps; the zone is CONFIRMED,
its timer stops, ZONE_ESCALATED is raised with the zone as source number and detail 0, and nothing is handed to the ETU or
the CSC. An event that joins the queue sends ATTENTION(EVENT) to the UP ports of role BRIDGE and SAFETY and to no other, and a
discarded one sends nothing (R164, R175). -/
def Obligations.ConfirmTimerEscalates : Prop :=
  (∀ s t : State, (∀ z, (s.zone z).confirm.isSome = true ↔ (s.zone z).fire = .alarm) → step s = .next t →
    ∀ z, (t.zone z).confirm.isSome = true ↔ (t.zone z).fire = .alarm) ∧
  ∀ (z : ZoneId) (s : State), (s.zone z).fire = .alarm → (s.zone z).confirm = some 0 →
    ∃ t, exec (.confirmTimerExpiry z) s = .next t ∧
      t.zone z = { s.zone z with fire := .confirmed, confirm := none } ∧ (∀ y, y ≠ z → t.zone y = s.zone y) ∧
      t.rpu.events = eventJoined s .zoneEscalated (byteOf (z.val + 1)) 0 ∧ t.rpu.masks = s.rpu.masks ∧
      t.etu = s.etu ∧ t.csc = s.csc ∧ t.dpm = s.dpm ∧ t.flc = s.flc ∧ t.cfg = s.cfg ∧ t.time = s.time ∧
      (∀ q, t.port q = if s.rpu.events.length < 16 then s.portAfterEvent .zoneEscalated q else s.port q) ∧
      t.pending = s.pending

/-! ### Passenger calls -/

/-- A CALL that passes its checks and matches no live entry, with room in the queue, becomes a QUEUED entry at the tail with
the next call id and the next acceptance order number (R122, R126). Where the PA port is in FAULT or its play is being
stopped it waits; an idle port with nothing else live and the entry playable starts it at once (R129, R131); a play of a
less urgent level is stopped for a playable entry (R132, R134). -/
def Obligations.CallTakesItsPlace : Prop :=
  ∀ (p : Port) (seq : Byte) (f : CallFields) (cancel : CancelCond) (set : ZoneSet) (s : State), Ready p s →
    s.cfg.startUp = .run → callInForm f = true → levelAllowed (s.role p) f.level.toNat = true →
    s.cancelOf f = some cancel → resolveRefs s.cfg.loaded (s.callContext p cancel) f.refs = some set →
    s.cancelHolds cancel = true →
    (∀ x ∈ s.csc.live, ¬ (x.cue = f.cue ∧ x.zones = set ∧ x.level = f.level.toNat)) → s.csc.queue.length < 32 →
    s.csc.acceptCount ≠ 0xFFFFFFFF → s.csc.nextId ≠ 0 → (∀ x ∈ s.csc.live, x.id ≠ s.csc.nextId) →
    let entry : CallEntry :=
      { id := s.csc.nextId, cue := f.cue, zones := set, level := f.level.toNat, repeats := f.repeats.toNat
        interval := f.interval.toNat
        expiry := if f.expiry = 0 then none else some (s.time + BitVec.ofNat 32 (100 * f.expiry.toNat))
        cancel := cancel, originator := some p, order := s.csc.acceptCount + 1, state := .queued, timer := none
        expired := false }
    let free : ZoneSet := if f.level.toNat ≤ 1 then set else set &&& ~~~s.csc.muted
    let joined : Csc :=
      { s.csc with
        queue := s.csc.queue ++ [entry], acceptCount := s.csc.acceptCount + 1
        nextId := if s.csc.nextId = 255 then 1 else s.csc.nextId + 1 }
    let taken : Csc → Result := fun c =>
      .next (answered p seq 0x50 .accepted [s.csc.nextId, 0] { s with csc := c })
    ((s.csc.pa.state = .fault ∨ s.csc.pa.state = .stopping) → exec (.call p seq f) s = taken joined) ∧
    (s.csc.pa.state = .idle → s.csc.pa.busy = false → s.csc.live = [] → free ≠ 0 →
      exec (.call p seq f) s = taken { joined with
        queue := []
        slot := some { cue := f.cue, zones := free, entry := some { entry with state := .playing }, stopOwed := false }
        pa := { s.csc.pa with
          state := .starting, timer := some 50, cue := f.cue, zones := free, play := true, stop := false } }) ∧
    (∀ (y : Play) (x : CallEntry), s.csc.slot = some y → y.entry = some x → y.stopOwed = false → free ≠ 0 →
      f.level.toNat < x.level →
      (s.csc.pa.state = .playing → exec (.call p seq f) s =
        taken { joined with pa := { s.csc.pa with state := .stopping, stop := true, timer := some 100 } }) ∧
      (s.csc.pa.state = .starting → exec (.call p seq f) s =
        taken { joined with slot := some { y with stopOwed := true } })) ∧
    ∀ (y : Play) (x : CallEntry), s.csc.slot = some y → y.entry = some x → x.level ≤ f.level.toNat →
      (s.csc.pa.state = .playing ∨ s.csc.pa.state = .starting) → exec (.call p seq f) s = taken joined

/-- A CALL that matches a live entry in cue, zone set and level is merged into it: the more repetitions and the later
expiry stand, an expired mark goes with a later expiry, and the id is that of the entry (R125). One with a full queue is
refused FULL, one whose level the role may not use LEVEL, and one whose cancel condition does not hold CONDITION (R124; which expiry is
later is read as in log 14). -/
def Obligations.CallMergesOrIsRefused : Prop :=
  ∀ (p : Port) (seq : Byte) (f : CallFields) (s : State), Ready p s → s.cfg.startUp = .run → callInForm f = true →
    ((s.role p = .deck ∧ f.level.toNat < 4 ∨ s.role p = .safety ∧ 3 < f.level.toNat) →
      exec (.call p seq f) s = .next (answered p seq 0x50 .level [] s)) ∧
    ∀ (cancel : CancelCond) (set : ZoneSet), levelAllowed (s.role p) f.level.toNat = true →
      s.cancelOf f = some cancel → resolveRefs s.cfg.loaded (s.callContext p cancel) f.refs = some set →
      ((∃ e q, cancel = .leaves e q ∧ (s.elem e).position ≠ q ∨
          ∃ z, cancel = .zoneNormal z ∧ inZones s.csc.muted z = false) →
        exec (.call p seq f) s = .next (answered p seq 0x50 .condition [] s)) ∧
      (s.cancelHolds cancel = true →
        (∀ x ∈ s.csc.live, ¬ (x.cue = f.cue ∧ x.zones = set ∧ x.level = f.level.toNat)) →
        32 ≤ s.csc.queue.length → exec (.call p seq f) s = .next (answered p seq 0x50 .full [] s)) ∧
      ∀ x, s.cancelHolds cancel = true →
        s.csc.live.find? (fun y => y.cue = f.cue && y.zones = set && y.level = f.level.toNat) = some x →
        exec (.call p seq f) s = .next (answered p seq 0x50 .accepted [x.id, 1] (s.modCsc (Csc.mapEntries fun y =>
          if y.id = x.id then
            let later := laterExpiry s.time y.expiry
              (if f.expiry = 0 then none else some (s.time + BitVec.ofNat 32 (100 * f.expiry.toNat)))
            { y with
              repeats := max y.repeats f.repeats.toNat, expiry := later
              expired := y.expired && decide (later = y.expiry) }
          else y)))

/-- WITHDRAW, and the expiry of an entry that is not playing, remove the entry from where it stands; the withdrawn entry of
a play leaves it, and the play is stopped; an expiry during the play marks it (R139, R140, R142). An interval that ends
makes its entry QUEUED in the same place (R138; log 14). -/
def Obligations.CallsLeaveTheirPlaces : Prop :=
  (∀ (p : Port) (seq id : Byte) (x : CallEntry) (s : State), Ready p s → s.cfg.startUp ≠ .unconfigured → id ≠ 0 →
    s.csc.live.find? (fun y => y.id = id) = some x →
    (x.originator ≠ some p → s.role p ≠ .bridge → (s.role p ≠ .safety ∨ x.originator ≠ none) →
      exec (.withdraw p seq id) s = .next (answered p seq 0x51 .role [] s)) ∧
    ((x.originator = some p ∨ s.role p = .bridge ∨ s.role p = .safety ∧ x.originator = none) →
      (s.csc.pa.state ≠ .idle → (∀ y ∈ s.csc.playEntry, y.id ≠ id) →
        exec (.withdraw p seq id) s = .next (answered p seq 0x51 .ok [x.state.code] (s.modCsc fun c =>
          { c with
            queue := c.queue.filter fun y => decide (y.id ≠ id)
            stack := c.stack.filter fun y => decide (y.id ≠ id) }))) ∧
      (∀ y : Play, s.csc.slot = some y → y.entry = some x → s.csc.pa.state = .playing →
        (∀ z ∈ s.csc.queue ++ s.csc.stack, z.id ≠ id) →
        exec (.withdraw p seq id) s = .next (answered p seq 0x51 .ok [x.state.code] (s.modCsc fun c =>
          { c with
            slot := some { y with entry := none }
            pa := { c.pa with state := .stopping, stop := true, timer := some 100 } }))))) ∧
  (∀ (p : Port) (seq id : Byte) (s : State), Ready p s → s.cfg.startUp ≠ .unconfigured →
    (id = 0 ∨ ∀ x ∈ s.csc.live, x.id ≠ id) →
    exec (.withdraw p seq id) s = .next (answered p seq 0x51 .unknown [] s)) ∧
  (∀ (id : Byte) (x : CallEntry) (now : Word32) (s : State), s.csc.live.find? (fun y => y.id = id) = some x →
    x.expiry = some now → s.time = now →
    (∀ y : Play, x.state = .playing → s.csc.slot = some y → y.entry = some x →
      exec (.callExpiry id) s = .next (s.modCsc fun c =>
        { c with slot := some { y with entry := some { x with expired := true } } })) ∧
    (x.state ≠ .playing → s.csc.pa.state ≠ .idle → (∀ y ∈ s.csc.playEntry, y.id ≠ id) →
      exec (.callExpiry id) s = .next (s.modCsc fun c =>
        { c with
          queue := c.queue.filter fun y => decide (y.id ≠ id)
          stack := c.stack.filter fun y => decide (y.id ≠ id) }))) ∧
  ∀ (id : Byte) (l r : List CallEntry) (x : CallEntry) (s : State), s.csc.queue = l ++ x :: r → x.id = id →
    (∀ y ∈ l ++ r, y.id ≠ id) → x.state = .interval → x.timer = some 0 →
    (s.csc.pa.state = .fault ∨ s.csc.pa.state = .stopping) →
    exec (.intervalExpiry id) s = .next (s.modCsc fun c =>
      { c with queue := l ++ { x with state := .queued, timer := none } :: r })

/-- BUSY answers a play: PLAYING with its limit tPAM, or STOP at once where a stop is owed (R131, R132). Its fall in PLAYING
completes the play and counts a repetition; its fall in STOPPING pushes the entry, and the more urgent one starts (R135,
R137). -/
def Obligations.BusyRunsThePlay : Prop :=
  ∀ (s : State) (y : Play), s.csc.slot = some y →
    (s.cfg.startUp ≠ .unconfigured → s.csc.pa.busy = false → s.csc.pa.state = .starting →
      exec .busyRise s = .next (s.modPa fun a =>
        if y.stopOwed then { a with busy := true, state := .stopping, stop := true, timer := some 100 }
        else { a with busy := true, state := .playing, timer := some 12000 })) ∧
    (s.cfg.startUp ≠ .unconfigured → s.csc.pa.busy = true → s.csc.queue = [] → s.csc.stack = [] →
      let quiet : PaPort :=
        { s.csc.pa with
          state := .idle, timer := none, cue := 0, zones := 0, play := false, stop := false, busy := false }
      (∀ x, y.entry = some x → s.csc.pa.state = .playing → x.expired = false → 1 < x.repeats → 0 < x.interval →
        exec .busyFall s = .next (s.modCsc fun c =>
          { c with
            slot := none, pa := quiet
            queue :=
              [{ x with repeats := x.repeats - 1, state := .interval, timer := some (100 * x.interval) }] })) ∧
      ((y.entry = none ∧ (s.csc.pa.state = .playing ∨ s.csc.pa.state = .stopping) ∨
          ∃ x, y.entry = some x ∧ s.csc.pa.state = .playing ∧ (x.expired = true ∨ x.repeats ≤ 1)) →
        exec .busyFall s = .next (s.modCsc fun c => { c with slot := none, pa := quiet }))) ∧
    ∀ x n, s.cfg.startUp = .run → s.csc.pa.busy = true → s.csc.pa.state = .stopping → y.entry = some x →
      x.expired = false → s.csc.stack.length < 4 → s.csc.queue = [n] → n.state = .queued → n.level < x.level →
      n.id ≠ x.id → (∀ z ∈ s.csc.stack, z.id ≠ n.id) →
      let free : ZoneSet := if n.level ≤ 1 then n.zones else n.zones &&& ~~~s.csc.muted
      free ≠ 0 →
      exec .busyFall s = .next (s.modCsc fun c =>
        { c with
          queue := [], stack := { x with state := .stacked } :: c.stack
          slot := some { cue := n.cue, zones := free, entry := some { n with state := .playing, expired := false }
                         stopOwed := false }
          pa := { c.pa with
            busy := false, state := .starting, timer := some 50, cue := n.cue, zones := free, play := true
            stop := false } })

/-- A PA fault, by the FAULT input or by a limit reached, empties the slot: the play's entry returns to the queue by its
acceptance order number, the lines drop, and PA_FAULT gives the cause; the fall of the input ends it (R133). -/
def Obligations.PaFaultReturnsThePlay : Prop :=
  (∀ (c : Instr) (detail : Word16) (s : State),
    (c = .paFaultRise ∧ detail = 4 ∧ s.csc.pa.fault = false ∧ s.csc.pa.state ≠ .fault ∧
        s.cfg.startUp ≠ .unconfigured ∨
      c = .paAnswerTimeout ∧ detail = 1 ∧ s.csc.pa.state = .starting ∧ s.csc.pa.timer = some 0 ∨
      c = .paPlayTimeout ∧ detail = 2 ∧ s.csc.pa.state = .playing ∧ s.csc.pa.timer = some 0 ∨
      c = .paStopTimeout ∧ detail = 3 ∧ s.csc.pa.state = .stopping ∧ s.csc.pa.timer = some 0) →
    (s.csc.playEntry = none ∨ s.csc.queue.length < 32) →
    ∃ t l r, exec c s = .next t ∧ OnlyCalls s t ∧ s.csc.queue = l ++ r ∧
      t.csc = { s.csc with
        slot := none
        queue := l ++ (match s.csc.playEntry with
          | some x => if x.expired then [] else [{ x with state := .queued }]
          | none => []) ++ r
        pa := { s.csc.pa with
          state := .fault, timer := none, cue := 0, zones := 0, play := false, stop := false
          fault := s.csc.pa.fault || decide (c = .paFaultRise) } } ∧
      (∀ x ∈ s.csc.playEntry, (∀ z ∈ l, z.order < x.order) ∧ ∀ z ∈ r.head?, x.order ≤ z.order) ∧
      t.rpu.events = eventJoined s .paFault 0 detail) ∧
  ∀ s : State, s.csc.pa.fault = true → s.csc.pa.state = .fault → s.cfg.startUp ≠ .unconfigured →
    (s.csc.pa.busy = true ∨ s.csc.live = []) →
    exec .paFaultFall s = .next (s.modPa fun a =>
      { a with
        fault := false, state := .idle, timer := none, cue := 0, zones := 0, play := false, stop := false })

/-! ### Reports -/

/-- COLLECT gives the status record as it stood and empties the element's pending set: an ENDED operation is discarded and
the element is IDLE; another runs on; the element leaves the report list. With nothing pending it is NOT_PENDING and nothing
changes (R155, R156), but that the overrun flag beside a zone closure is cleared (R158; taking that row so is the model's
choice, log 36). COLLECT-NEXT collects the oldest listed element whose class its port's mask holds (R157). -/
def Obligations.CollectEmptiesPending : Prop :=
  ∀ (p : Port) (seq : Byte) (s : State), Ready p s → s.cfg.startUp ≠ .unconfigured →
    let collected : Byte → ElemId → ElementCfg → State := fun code e c =>
      let u := answered p seq code .pending (statusRecord e c (s.elem e)) (s.modElem e fun r =>
        { r with
          pend := { ended := false, stage := false, alert := false }, overrun := false
          op := if r.pend.ended then none else r.op
          activity := if r.pend.ended then .idle else r.activity })
      { u with etu := { u.etu with reports := s.etu.reports.filter fun d => decide (d ≠ e) } }
    (∀ b e c, s.elem? b = some (e, c) → (s.elem e).enabled = true →
      ((s.elem e).listed = true → exec (.collect p seq b) s = .next (collected 0x60 e c)) ∧
      ((s.elem e).listed = false →
        exec (.collect p seq b) s = .next (answered p seq 0x60 .notPending (statusRecord e c (s.elem e))
          (if (s.elem e).op.any (fun o => o.requester = none) then s.modElem e fun r => { r with overrun := false }
            else s)))) ∧
    (∀ b e c, s.elem? b = some (e, c) → (s.elem e).enabled = false →
      exec (.collect p seq b) s = .next (answered p seq 0x60 .notOperational [] s)) ∧
    (∀ e c before rest, s.etu.reports = before ++ e :: rest → (s.elem e).listed = true → s.elemCfg e = some c →
      maskHas s.rpu.masks[p] (s.elem e).reportClass = true →
      (∀ d ∈ before, maskHas s.rpu.masks[p] (s.elem d).reportClass = false) →
      exec (.collectNext p seq) s = .next (collected 0x61 e c)) ∧
    ((∀ d ∈ s.etu.reports, maskHas s.rpu.masks[p] (s.elem d).reportClass = false) →
      exec (.collectNext p seq) s = .next (answered p seq 0x61 .none [] s))

/-- SET-MASK replaces the sender's own mask and gives the former one; where it adds a class, one ATTENTION(ELEMENT) for the
oldest listed element of an added class follows the response (R159, R161). What a mask admits is seen at an ending (a driven
stage at its limit, of an element with no slot, no place and no closure owed): the element joins the report list at the tail, or
keeps its place (R152); a join sends ATTENTION(ELEMENT) to every UP port whose mask holds the operation's class, a change of class
to every UP port whose mask holds the new class and not the old, and nothing is sent where the class stands (R153, R160, R175). -/
def Obligations.SetMaskReplaces : Prop :=
  (∀ (p : Port) (seq m : Byte) (s : State), Ready p s → s.cfg.startUp ≠ .unconfigured →
    let masked : State := { s with rpu := { s.rpu with masks := s.rpu.masks.set p.val m p.isLt } }
    let added : Byte := m &&& ~~~s.rpu.masks[p]
    ((∀ d ∈ s.etu.reports, maskHas added (s.elem d).reportClass = false) →
      exec (.setMask p seq m) s = .next (answered p seq 0x62 .ok [s.rpu.masks[p]] masked)) ∧
    ∀ e before rest, s.etu.reports = before ++ e :: rest → maskHas added (s.elem e).reportClass = true →
      (∀ d ∈ before, maskHas added (s.elem d).reportClass = false) → (s.port p).owed = false →
      (s.port p).tx.length ≤ 13 →
      exec (.setMask p seq m) s = .next (masked.modPort p fun r =>
        { r with tx := r.tx ++ [.response seq 0x62 [Answer.ok.code, s.rpu.masks[p]], .attention 0x01
          [byteOf e.val, byteOf (s.elem e).reportClass, (s.elem e).pend.code]] })) ∧
  ∀ (e : ElemId) (c : ElementCfg) (o : OpRec) (s : State), s.elemCfg e = some c → (s.elem e).op = some o →
    (s.elem e).activity = .active →
    ((o.stage = .unlock ∨ o.stage = .lock) ∧ 100 * c.tLck ≤ o.stageTime.toNat ∨
      (o.stage = .travelOpen ∨ o.stage = .travelClose) ∧ 100 * c.tTrv ≤ o.stageTime.toNat) →
    o.mark = false → (s.elem e).closureOwed = false → s.slotOf e = none → s.waits e = none →
    let pend : Pending := (s.elem e).pend
    let told : Port → Prop := fun q => maskHas s.rpu.masks[q] o.cls = true ∧
      (pend.ended = false ∧ pend.stage = false ∧ pend.alert = false ∨
        pend.ended = false ∧ pend.stage = false ∧ o.cls ≠ (s.elem e).cls ∧
          maskHas s.rpu.masks[q] (s.elem e).cls = false)
    ∃ t, exec (.stageLimitExpiry e) s = .next t ∧ t.elem e = (s.elem e).endedWith .timeout o ∧
      t.etu.reports =
        s.etu.reports ++ (if pend.ended = false ∧ pend.stage = false ∧ pend.alert = false then [e] else []) ∧
      ∀ q, (told q → t.port q = (s.port q).attended 0x01
          [byteOf e.val, byteOf o.cls, ({ pend with ended := true } : Pending).code]) ∧
        (¬ told q → t.port q = s.port q)

/-- FETCH-EVENT, by R165: in every mode, a port that is neither BRIDGE nor SAFETY is refused ROLE; the oldest entry leaves
and is given with the number of entries left; an empty queue answers NONE. -/
def Obligations.FetchEventRemovesOldest : Prop :=
  ∀ (p : Port) (seq : Byte) (s : State), Ready p s →
    (s.role p ≠ .bridge → s.role p ≠ .safety →
      exec (.fetchEvent p seq) s = .next (answered p seq 0x63 .role [] s)) ∧
    ((s.role p = .bridge ∨ s.role p = .safety) →
      (s.rpu.events = [] → exec (.fetchEvent p seq) s = .next (answered p seq 0x63 .none [] s)) ∧
      ∀ e es, s.rpu.events = e :: es →
        exec (.fetchEvent p seq) s = .next (answered p seq 0x63 .ok
          ([e.kind.code, e.source] ++ bytes16 e.detail ++ bytes32 e.time ++ [if e.overflow then 1 else 0,
            byteOf es.length]) { s with rpu := { s.rpu with events := es } }))

/-! ### Configuration -/

/-- CFG-WRITE from BRIDGE in SERVICE replaces one entry and makes the checksum invalid, and CFG-READ then gives back what was
written, for every section (R193); a field out of range is refused FORM, and a running commit makes either BUSY. Not R193's,
but the model's: entries count from 0 (log 33); the bits that an entry does not use are not kept, and are written as 0 in the
statement (log 19); in sections 5 and 8 any byte is accepted in the references behind the first n, and as the number of a
reference kind that takes none, and reads back as written (log 38); and which values of a field that an entry's kind makes absent
are in range, so that FORM is not answered, is log 18's, and that a DOOR without a boundary zone is taken is log 43's. -/
def Obligations.ConfigWriteReadsBack : Prop :=
  ∀ (p : Port) (seq : Byte) (f : WriteFields) (s : State), Ready p s → s.cfg.startUp = .service → s.role p = .bridge →
    writeLengthOk f = true → (∀ q, ∀ x ∈ (s.port q).tx, x.isSoftOk = false) →
    (s.cfg.committing ≠ none → exec (.cfgWrite p seq f) s = .next (answered p seq 0x70 .busy [] s) ∧
      exec (.cfgRead p seq f.sect f.entry) s = .next (answered p seq 0x71 .busy [] s)) ∧
    (s.cfg.committing = none → writeEntry s.cfg.image f = none →
      exec (.cfgWrite p seq f) s = .next (answered p seq 0x70 .form [] s)) ∧
    ∀ img, s.cfg.committing = none → writeEntry s.cfg.image f = some img →
      exec (.cfgWrite p seq f) s =
        .next (answered p seq 0x70 .ok [] { s with cfg := { s.cfg with image := img, valid := false } }) ∧
      (∀ d m, f.sect = 2 → f.fields = [d, m] → ∀ q : Port, f.entry = byteOf q.val →
        img = { s.cfg.image with
          stations := s.cfg.image.stations.set q.val { homeDeck := d.toNat, mask := m } q.isLt }) ∧
      ((f.sect = 6 → f.flags.getLsbD 0 = true → (∀ b ∈ f.fields[8]?, b.toNat < 8) ∧
          (∀ b ∈ f.fields[10]?, b.toNat < 16) ∧ ∀ b ∈ f.fields[11]?, b.toNat < 16) →
        (f.sect = 8 → f.flags.getLsbD 0 = true → ∀ b ∈ f.fields[17]?, b.toNat < 2) →
        ∀ (r : Byte) (t : State), Ready p t → t.cfg = { s.cfg with image := img, valid := false } →
          t.role p = .bridge → (∀ q, ∀ x ∈ (t.port q).tx, x.isSoftOk = false) →
          exec (.cfgRead p r f.sect f.entry) t = .next (answered p r 0x71 .ok
            ([f.sect, f.entry, if f.flags.getLsbD 0 then 1 else 0] ++ f.fields ++ [0]) t))

/-- CFG-COMMIT sets the commit flag and keeps its response place; the end of the work makes the checksum valid exactly where
the image passes, and puts OK, or CONDITION with the failing section and entry, in that place (R173, R194); a request that
waited in the receive FIFO is then handed on, as its request row would be, and CONTINUE waits to be sent where the throttle was
on (R171, R173). What a passing image holds: distinct node addresses, a cue in every zone, limits, drives and a home zone in every
element, two different ends of every interlock, and no output channel bound by two elements. Every step keeps it so that the image
that the blocks run on passes, and the held one where its checksum is valid (R193, R194, R195). -/
def Obligations.CommitValidatesTheImage : Prop :=
  (∀ (p : Port) (seq : Byte) (s : State), Ready p s → s.cfg.startUp = .service → s.role p = .bridge →
    (∀ q, ∀ x ∈ (s.port q).tx, x.isSoftOk = false) → s.cfg.committing = none →
    exec (.cfgCommit p seq) s = .next
      ({ s with cfg := { s.cfg with committing := some p } }.modPort p fun r =>
        { r with tx := r.tx ++ [TxPlace.reserved seq 0x72] })) ∧
  (∀ (p : Port) (seq : Byte) (before after : List TxPlace) (s : State), s.cfg.committing = some p →
    (s.port p).tx = before ++ TxPlace.reserved seq 0x72 :: after → (∀ x ∈ before ++ after, x.isReserved = false) →
    (s.port p).rx = [] →
    exec .cfgCommitDone s = .next
      ({ s with cfg := { s.cfg with
          committing := none, valid := decide (validate s.cfg.image = none) } }.modPort p fun r =>
        { r with tx := before ++ TxPlace.response seq 0x72 (match validate s.cfg.image with
            | none => [Answer.ok.code]
            | some (sect, entry) => [Answer.condition.code, sect, entry]) :: after })) ∧
  (∀ (c : Instr) (p : Port) (seq : Byte) (q : Request) (before after : List TxPlace) (s : State),
    s.cfg.committing = some p → (s.port p).link = .up → (s.port p).tx = before ++ TxPlace.reserved seq 0x72 :: after →
    (∀ x ∈ before ++ after, x.isReserved = false) → before.length + after.length < 15 → (s.port p).rx = [q] →
    c.wellFormed = true → requestOf c = some (p, q.seq, q.code, q.payload) →
    exec .cfgCommitDone s = exec c
      ({ s with cfg := { s.cfg with
          committing := none, valid := decide (validate s.cfg.image = none) } }.modPort p fun r =>
        { r with
          tx := before ++ TxPlace.response seq 0x72 (match validate s.cfg.image with
            | none => [Answer.ok.code]
            | some (sect, entry) => [Answer.condition.code, sect, entry]) :: after
          rx := [], throttle := false, waiting := if r.throttle then some .cont else r.waiting })) ∧
  validate Image.blank = none ∧
  (∀ img : Image, validate img = none →
    (∀ (m n : NodeId) a b, img.nodes[m] = some a → img.nodes[n] = some b → m ≠ n → a.address ≠ b.address) ∧
    (∀ (z : ZoneId) c, img.zones[z] = some c → c.cue ≠ 0) ∧
    (∀ (e : ElemId) c, img.elements[e] = some c → img.zones[c.homeZone] ≠ none ∧ c.closedLimit ≠ none ∧
      c.openLimit ≠ none ∧ c.driveOpen ≠ none ∧ c.driveClose ≠ none) ∧
    (∀ (i : Fin 32) c, img.interlocks[i] = some c → c.dependent ≠ c.prerequisite) ∧
    ∀ (d e : ElemId) a b, img.elements[d] = some a → img.elements[e] = some b → d ≠ e →
      ∀ w ∈ elementOutputs a, w ∉ elementOutputs b) ∧
  ∀ s t : State, ImagesPass s → step s = .next t → ImagesPass t

/-! ### The field link -/

/-- An exchange starts with the configured node that follows the one last served, with its output image as it stands; the
first exchange after a reset is with the lowest configured node (R183, R184; log 32). With no configured node, during an
exchange, and with the field driver on, nothing starts (log 2). The row ends at the closing FLAG of the OUT, where the driver
drops (R181, R184), so that the driver is off between any two commands (log 31). -/
def Obligations.FieldExchangeStarts : Prop :=
  (∀ s t : State, s.flc.driving = false → step s = .next t → t.flc.driving = false) ∧
  ∀ s : State,
    ((s.flc.exchange ≠ none ∨ s.flc.driving = true ∨ ∀ n, (s.node n).state = .unused) → exec .fieldExchangeStart s = .next s) ∧
    ∀ n : NodeId, s.flc.exchange = none → s.flc.driving = false → (s.node n).state ≠ .unused →
      (∀ m : NodeId, (s.node m).state ≠ .unused →
        (n.val + 7 - s.flc.served.elim 7 Fin.val) % 8 ≤ (m.val + 7 - s.flc.served.elim 7 Fin.val) % 8) →
      exec .fieldExchangeStart s = .next { s with flc := { s.flc with
        exchange := some n, served := some n, driving := false
        ftxd := fieldChars (s.address n) 0x01 (s.node n).outputs } }

/-- A valid answer makes its node ONLINE with no miss and its inputs as answered, and NODE_BACK joins where it was LOST; an
unchanged image changes nothing else; every element bound to a changed channel is decoded anew, and every other element keeps its
position, lock state and setting, whichever block takes the notification first (R7, R184, R185, R187; logs 6 and 7). At rest and
enabled, an element takes ALERT with the reason of R9's table for a change of position or of lock state, at a first decode for
CONFLICT alone, and the overrun flag where ALERT was pending; its seen flags follow (R8, R9, R10). An installed unit whose fault input
turns true enters FAULT with FAULT_INPUT; one that is READY or SERVING and whose running input turns false enters FAULT with
LOST_PRESSURE; one that is STARTING and whose running input turns true leaves STARTING, for READY with its idle timer started
where nothing waits for a slot (R82, R84, R91). While the field driver is on, the line is not read (R181). Where the answer moves
one element alone, whose position was seen before, in RUN: the calls that end as it leaves its position are removed, the binding of
the position that it enters makes its call, for the references that it gives, and nothing is called where no binding is of that
position; at a first decode and in SERVICE no call comes or goes (R16, R123, R141, R145). -/
def Obligations.FieldAnswerIsDecoded : Prop :=
  (∀ (n : NodeId) (bits : Word16) (chars : List LineChar) (order : BlockOrder) (s : State),
    let now := s.modNode n fun r => { r with inputs := some bits }
    ((s.flc.exchange = none ∨ s.flc.driving = true) → exec (.fieldFrameReceived chars order) s = .next s) ∧
    (s.flc.exchange = some n → s.flc.driving = false → receiveField (s.address n) chars = some bits →
      ((s.node n).state = .online → (s.node n).inputs = some bits →
        exec (.fieldFrameReceived chars order) s = .next
          ({ s with flc := { s.flc with exchange := none } }.modNode n fun r => { r with misses := 0 })) ∧
      ∃ t, exec (.fieldFrameReceived chars order) s = .next t ∧ t.flc.exchange = none ∧ t.flc.served = s.flc.served ∧
        t.flc.driving = false ∧ t.flc.ftxd = s.flc.ftxd ∧
        (∀ u, unitInstalled (s.unitCfg u) = true → (s.unit u).state ≠ .fault →
          let fails := now.input (s.unitCfg u).fault = some true ∧ s.input (s.unitCfg u).fault ≠ some true
          (fails → (t.unit u).state = .fault ∧ (t.unit u).reason = .faultInput) ∧
          (¬ fails → ((s.unit u).state = .ready ∨ (s.unit u).state = .serving) →
            now.input (s.unitCfg u).running = some false → s.input (s.unitCfg u).running ≠ some false →
            (t.unit u).state = .fault ∧ (t.unit u).reason = .lostPressure) ∧
          (¬ fails → (s.unit u).state = .starting → now.input (s.unitCfg u).running = some true →
            s.input (s.unitCfg u).running ≠ some true →
            ((t.unit u).state = .ready ∨ (t.unit u).state = .serving) ∧ (t.unit u).startTimer = none ∧
            ((s.unit u).idleTimer = none → s.dpm.queue = [] → (∀ v, (s.unit v).holders = []) →
              t.unit u = { s.unit u with
                state := .ready, startTimer := none, idleTimer := some (100 * s.cfg.loaded.part.tPid) }))) ∧
        t.node n = { state := .online, misses := 0, inputs := some bits, outputs := (t.node n).outputs } ∧
        (∀ m, m ≠ n → NodeKept (s.node m) (t.node m)) ∧
        (∃ more, t.rpu.events.map EventEntry.kind =
          (if (s.node n).state = .lost then eventJoined s .nodeBack (byteOf n.val) 0 else s.rpu.events).map
            EventEntry.kind ++ more) ∧
        (∀ e c, s.elemCfg e = some c →
          let changed := ∃ w ∈ [c.closedLimit, c.openLimit, c.locked, c.unlocked, c.obstruction].filterMap id,
            w.node = n ∧ channelOf (s.node n).inputs w ≠ some (bits.getLsbD w.line.val)
          (changed → (t.elem e).position = decodePosition (t.input c.closedLimit) (t.input c.openLimit) ∧
            (lockBound c = true → (t.elem e).lock = decodeLock (t.input c.locked) (t.input c.unlocked))) ∧
          (¬ changed → (t.elem e).position = (s.elem e).position ∧ (t.elem e).lock = (s.elem e).lock) ∧
          TakesAlert s t e c) ∧
        (∀ e, (t.elem e).hold = (s.elem e).hold ∧ (t.elem e).enabled = (s.elem e).enabled) ∧
        t.time = s.time ∧ t.cfg = s.cfg ∧ (∀ q, PortKept (s.port q) (t.port q)) ∧ t.etu.auth = s.etu.auth ∧
        OutputsKept elements units s t ∧
        t.etu.alarmed = s.etu.alarmed ∧ t.zones = s.zones ∧ t.rpu.masks = s.rpu.masks ∧ t.pending = s.pending)) ∧
  ∀ (n : NodeId) (bits : Word16) (chars : List LineChar) (order : BlockOrder) (e : ElemId) (c : ElementCfg) (s : State),
    let now := s.modNode n fun r => { r with inputs := some bits }
    let old := (s.elem e).position
    let pos := decodePosition (now.input c.closedLimit) (now.input c.openLimit)
    s.flc.exchange = some n → s.flc.driving = false → receiveField (s.address n) chars = some bits →
    s.elemCfg e = some c → old = decodePosition (s.input c.closedLimit) (s.input c.openLimit) → pos ≠ old →
    (∀ d dc, s.elemCfg d = some dc → d ≠ e →
      ∀ ch ∈ [dc.closedLimit, dc.openLimit, dc.locked, dc.unlocked, dc.obstruction], now.input ch = s.input ch) →
    ∃ t, exec (.fieldFrameReceived chars order) s = .next t ∧ (t.elem e).position = pos ∧
      (((s.elem e).posSeen = false ∨ s.cfg.startUp ≠ .run) → t.csc = s.csc) ∧
      ((s.elem e).posSeen = true → s.cfg.startUp = .run →
        let left : Csc := s.csc.without (.leaves e old)
        let fires : Fin 16 → BindingCfg → Prop := fun i b =>
          s.cfg.loaded.bindings[i] = some b ∧ b.element = e ∧ b.entry = pos
        ((∀ i b, ¬ fires i b) → s.csc.pa.state ≠ .idle ∨ s.csc.pa.busy = true ∨ left.live = [] → t.csc = left) ∧
        ∀ i b set, fires i b → (∀ j b', j ≠ i → ¬ fires j b') →
          resolveRefs s.cfg.loaded { homeDeck := (s.zoneCfg c.homeZone).map (·.deck), trigger := some c.homeZone }
            (b.refs.take b.nRefs) = some set →
          TakesCall s.time
            { cue := b.cue, zones := set, level := b.level, repeats := b.repeats, interval := b.interval
              expiry := b.expiry, cancel := if b.cancel then .leaves e pos else .none, originator := none } left t.csc)

/-- What an answer that moves one door's limits does to its unmarked operation in TRAVEL_OPEN, where no other element reads a
changed channel, no unit reads the node, nothing depends on the door, no boundary zone is alarmed and no closure is owed: OPEN
ends an OPEN with DONE and brings an EGRESS into HOLD_OPEN; CLOSED ends either with WRONG_LIMIT; both limits together end it
with SENSOR_CONFLICT (R5, R7, R27, R30, R32, R33, R37, R46). What an answer that moves an element does to the unmarked operation of
another, which it names as prerequisite: where every applicable entry is satisfied, nothing; otherwise an ACTIVE operation becomes
SUSPENDED with INTERLOCK, its outputs off and its suspension timer at tSUS, a SUSPENDED one has INTERLOCK among its reasons with the
timer as it ran, and a START_PENDING one ends INTERLOCK_LOST and leaves the queue (R41, R46, R55; that it waits on units which
cannot grant it in that event; its reasons are log 9's). What an answer, or a
third miss, does to a door that leaves CLOSED while a boundary zone is alarmed, where no other element reads a changed channel and no
interlock entry names the door on both ends (none does by ImagesPass): its flag is set first; at rest it has its closure begun, or
deferred where the new position is UNKNOWN or CONFLICT; an operation in progress ends POSITION_LOST with the flag set, or
SENSOR_CONFLICT, which clears the flag and raises CLOSURE_FAILED where the operation has the mark, or stays in WARN; and a disabled
door raises DOOR_UNAVAILABLE where its flag was clear and its new position is not UNKNOWN (R108, R109, R111, R112, R113; of an event,
where every event found room; logs 8 and 9). -/
def Obligations.LimitsMoveTheOperation : Prop :=
  (∀ (n : NodeId) (bits : Word16) (chars : List LineChar) (order : BlockOrder) (e : ElemId) (c : ElementCfg) (o : OpRec)
    (s : State),
    let now := s.modNode n fun r => { r with inputs := some bits }
    let pos := decodePosition (now.input c.closedLimit) (now.input c.openLimit)
    s.flc.exchange = some n → s.flc.driving = false → receiveField (s.address n) chars = some bits →
    s.elemCfg e = some c → isDoor c = true →
    lockBound c = false → (s.elem e).lock = .none → (s.elem e).op = some o → (s.elem e).activity = .active →
    o.stage = .travelOpen → o.kind ≠ .closing → o.mark = false → (s.elem e).closureOwed = false → s.doorAlarmed c = false →
    s.slotOf e = none → s.waits e = none → (s.elem e).position = decodePosition (s.input c.closedLimit) (s.input c.openLimit) → pos ≠ (s.elem e).position →
    (∀ d dc, s.elemCfg d = some dc → d ≠ e →
      ∀ ch ∈ [dc.closedLimit, dc.openLimit, dc.locked, dc.unlocked, dc.obstruction], now.input ch = s.input ch) →
    (∀ u, now.input (s.unitCfg u).running = s.input (s.unitCfg u).running ∧
      now.input (s.unitCfg u).fault = s.input (s.unitCfg u).fault) →
    (∀ (i : Fin 32) ic, s.cfg.loaded.interlocks[i] = some ic → ic.prerequisite ≠ e) →
    ∃ t, exec (.fieldFrameReceived chars order) s = .next t ∧ (t.elem e).position = pos ∧ (∀ d, d ≠ e → t.elem d = s.elem d) ∧
      t.dpm = s.dpm ∧ t.zones = s.zones ∧ OutputsKept [e] [] s t ∧
      (∀ code, (pos = .opened ∧ o.kind = .opening ∧ code = .done ∨ pos = .closed ∧ code = .wrongLimit ∨
          pos = .conflict ∧ code = .sensorConflict) →
        (t.elem e).activity = .ended ∧ (t.elem e).pend.ended = true ∧
        (∃ m, (t.elem e).op = some m ∧ m.code = code ∧ m.stage = .travelOpen) ∧
        (t.elem e).last =
          { kind := some o.kind, requester := (match o.requester with | some q => .port q | none => .internal)
            tag := o.tag, cls := o.cls, stage := .travelOpen, code := code, motion := o.motion } ∧
        ((elementOutputs c).Nodup → Drives t c false false false false false)) ∧
      (pos = .opened → o.kind = .egress → (t.elem e).activity = .active ∧ (t.elem e).last = (s.elem e).last ∧
        (∃ m, (t.elem e).op = some m ∧ m.stage = .holdOpen ∧ m.stageTime = 0 ∧ m.motion = o.motion) ∧
        ((elementOutputs c).Nodup → Drives t c false false false false false))) ∧
  (∀ (n : NodeId) (bits : Word16) (chars : List LineChar) (order : BlockOrder) (e d : ElemId) (c dc : ElementCfg) (o : OpRec)
    (i : Fin 32) (entry : InterlockCfg) (s : State),
    let now := s.modNode n fun r => { r with inputs := some bits }
    s.flc.exchange = some n → s.flc.driving = false → receiveField (s.address n) chars = some bits →
    s.elemCfg e = some c → s.elemCfg d = some dc → d ≠ e → (s.elem d).op = some o → o.mark = false →
    s.cfg.loaded.interlocks[i] = some entry → entry.dependent = d → entry.prerequisite = e →
    (entry.opKind = .onAny ∨ entry.opKind = .onOpen ∧ o.kind = .opening ∨ entry.opKind = .onClose ∧ o.kind = .closing) →
    (s.elem e).position = decodePosition (s.input c.closedLimit) (s.input c.openLimit) →
    (lockBound c = true → (s.elem e).lock = decodeLock (s.input c.locked) (s.input c.unlocked)) →
    (decodePosition (now.input c.closedLimit) (now.input c.openLimit) ≠ (s.elem e).position ∨
      lockBound c = true ∧ decodeLock (now.input c.locked) (now.input c.unlocked) ≠ (s.elem e).lock) →
    (∀ ch ∈ [dc.closedLimit, dc.openLimit, dc.locked, dc.unlocked, dc.obstruction], now.input ch = s.input ch) →
    (∀ u, now.input (s.unitCfg u).running = s.input (s.unitCfg u).running ∧
      now.input (s.unitCfg u).fault = s.input (s.unitCfg u).fault) →
    ∃ t, exec (.fieldFrameReceived chars order) s = .next t ∧
      ((s.elem d).activity = .active → s.waits d = none →
        (t.failingEntry d o.kind = none → t.elem d = s.elem d) ∧
        (t.failingEntry d o.kind ≠ none → t.elem d = { s.elem d with
            activity := .suspended
            op := some { o with suspTimer := some 3000, reasons := { o.reasons with interlock := true } } } ∧
          ((elementOutputs dc).Nodup → (∀ x xc, s.elemCfg x = some xc → x ≠ d →
            ∀ w ∈ elementOutputs xc, w ∉ elementOutputs dc) → Drives t dc false false false false false))) ∧
      ((s.elem d).activity = .suspended → s.waits d = none →
        t.elem d = if t.failingEntry d o.kind = none then s.elem d
          else { s.elem d with op := some { o with reasons := { o.reasons with interlock := true } } }) ∧
      ((s.elem d).activity = .startPending → isDoor dc = false → s.slotOf d = none →
        (∀ w ∈ s.dpm.queue, w.elem = d → ∀ u, inPath w.path u = true →
          (s.unit u).state ≠ .ready ∧ (s.unit u).state ≠ .serving) →
        (t.failingEntry d o.kind = none → t.elem d = s.elem d ∧ t.waits d = s.waits d) ∧
        (t.failingEntry d o.kind ≠ none → t.elem d = (s.elem d).endedWith .interlockLost o ∧ t.waits d = none))) ∧
  ∀ (i : Instr) (n : NodeId) (inputs : Option Word16) (chars : List LineChar) (order : BlockOrder) (e : ElemId) (c : ElementCfg)
    (s : State),
    let now := s.modNode n fun r => { r with inputs := inputs }
    let pos := decodePosition (now.input c.closedLimit) (now.input c.openLimit)
    s.flc.exchange = some n → s.flc.driving = false →
    (i = .fieldFrameReceived chars order ∧ inputs.isSome = true ∧ receiveField (s.address n) chars = inputs ∨
      i = .fieldAnswerTimeout order ∧ inputs = none ∧ (s.node n).state = .online ∧ (s.node n).misses = 2) →
    s.elemCfg e = some c → isDoor c = true → lockBound c = false → (s.elem e).lock = .none → s.doorAlarmed c = true →
    (s.elem e).position = .closed → decodePosition (s.input c.closedLimit) (s.input c.openLimit) = .closed → pos ≠ .closed →
    s.slotOf e = none → s.waits e = none →
    (∀ d dc, s.elemCfg d = some dc → d ≠ e →
      ∀ ch ∈ [dc.closedLimit, dc.openLimit, dc.locked, dc.unlocked, dc.obstruction], now.input ch = s.input ch) →
    (∀ (k : Fin 32) ic, s.cfg.loaded.interlocks[k] = some ic → ic.prerequisite = e → ic.dependent ≠ e) →
    ∃ t, exec i s = .next t ∧ (t.elem e).position = pos ∧
      ((s.elem e).enabled = false → (s.elem e).activity = .idle →
        (t.elem e).closureOwed = true ∧ (t.elem e).activity = .idle ∧ (t.elem e).op = (s.elem e).op ∧
        (t.rpu.events.length < 16 →
          ({ kind := .doorUnavailable, source := byteOf e.val, time := s.time, overflow := false
             detail := (match s.lowestAlarmed c with
              | some y => wordOf (y.val + 1)
              | none => 0) } ∈ t.rpu.events.drop s.rpu.events.length ↔
            (s.elem e).closureOwed = false ∧ pos ≠ .unknown))) ∧
      ((s.elem e).enabled = true → (s.elem e).activity = .idle ∨ (s.elem e).activity = .ended →
        (t.elem e).closureOwed = true ∧
        (pos = .opened ∨ pos = .between → (t.elem e).activity = .active ∧ (t.elem e).op = some (s.closureBegun c) ∧
          (t.elem e).last = (s.elem e).last ∧
          ((s.elem e).activity = .ended → (t.elem e).overrun = true ∧ (t.elem e).pend.ended = false) ∧
          ((elementOutputs c).Nodup → (∀ x xc, s.elemCfg x = some xc → x ≠ e →
            ∀ w ∈ elementOutputs xc, w ∉ elementOutputs c) →
            (∀ v w, (s.unitCfg v).startOut = some w → w ∉ elementOutputs c) → Drives t c false false false false true)) ∧
        (pos = .unknown ∨ pos = .conflict →
          (t.elem e).activity = (s.elem e).activity ∧ (t.elem e).op = (s.elem e).op)) ∧
      ∀ o, (s.elem e).op = some o → (s.elem e).activity.inProgress = true →
        (pos = .unknown → (t.elem e).op = some { o with code := .positionLost, slot := none, window := none, suspTimer := none } ∧
          (t.elem e).activity = .ended ∧ (t.elem e).pend.ended = true ∧ (t.elem e).closureOwed = true) ∧
        (pos = .conflict → (t.elem e).op = some { o with code := .sensorConflict, slot := none, window := none, suspTimer := none } ∧
          (t.elem e).activity = .ended ∧ (t.elem e).pend.ended = true ∧ (t.elem e).closureOwed = !o.mark) ∧
        (pos = .opened ∨ pos = .between → o.stage = .warn → (t.elem e).op = some o ∧
          (t.elem e).activity = (s.elem e).activity ∧ (t.elem e).closureOwed = true) ∧
        (t.rpu.events.length < 16 → pos = .unknown ∨ pos = .conflict →
          ({ kind := .closureFailed, source := byteOf e.val, detail := 8, time := s.time, overflow := false } ∈
              t.rpu.events.drop s.rpu.events.length ↔
            pos = .conflict ∧ o.mark = true))

/-- A miss, by the answer timer or by an invalid frame, counts against an ONLINE node; its third makes the node LOST with
every input unknown, raises NODE_LOST, decodes every element with a limit on it as UNKNOWN, with ALERT as R8 to R10 have it, and
faults with LINK every installed unit not in FAULT that has a channel on it; a node SEEKING or LOST is left as it is (R84, R184, R186, R187;
logs 6, 7 and 30). While the field driver is on, neither row has an effect (R181, R184). What the fault of a SERVING unit does to the
operations that hold its slots, where it alone is on the node, no element reads it, and the other units of every path concerned
are in FAULT or STARTING: one without the multipath flag ends PATH_FAILED; one with it is SUSPENDED with PATH and without its slot,
and waits at the head of the queue in grant order, or ends PATH_FAILED where no candidate is left; the holders list and the timers of
the unit are empty, its start output is off, and PU_FAULT gives the reason (R41, R46, R85, R92; the reasons of an ended record are
log 9's). -/
def Obligations.FieldMissLosesNode : Prop :=
  (∀ (c : Instr) (n : NodeId) (chars : List LineChar) (order : BlockOrder) (s : State), s.flc.exchange = some n →
    (c = .fieldAnswerTimeout order ∨ c = .fieldFrameReceived chars order ∧ receiveField (s.address n) chars = none) →
    (s.flc.driving = true → exec c s = .next s) ∧
    (s.flc.driving = false → (s.node n).state ≠ .online → exec c s = .next { s with flc := { s.flc with exchange := none } }) ∧
    (s.flc.driving = false → (s.node n).state = .online → (s.node n).misses < 2 → exec c s = .next
      ({ s with flc := { s.flc with exchange := none } }.modNode n fun r => { r with misses := r.misses + 1 })) ∧
    (s.flc.driving = false → (s.node n).state = .online → (s.node n).misses = 2 →
      ∃ t, exec c s = .next t ∧ t.flc.exchange = none ∧ t.flc.served = s.flc.served ∧ t.flc.driving = false ∧
        t.flc.ftxd = s.flc.ftxd ∧
        t.node n = { state := .lost, misses := 3, inputs := none, outputs := (t.node n).outputs } ∧
        (∀ m, m ≠ n → NodeKept (s.node m) (t.node m)) ∧
        (∃ more, t.rpu.events.map EventEntry.kind =
          (eventJoined s .nodeLost (byteOf n.val) 0).map EventEntry.kind ++ more) ∧
        (∀ e d w, s.elemCfg e = some d → (d.closedLimit = some w ∨ d.openLimit = some w) → w.node = n →
          (s.node n).inputs ≠ none → (t.elem e).position = .unknown) ∧
        (∀ e d, s.elemCfg e = some d → TakesAlert s t e d) ∧
        (∀ u w, unitInstalled (s.unitCfg u) = true →
          ((s.unitCfg u).startOut = some w ∨ (s.unitCfg u).running = some w ∨ (s.unitCfg u).fault = some w) →
          w.node = n → (s.unit u).state ≠ .fault → (t.unit u).state = .fault ∧ (t.unit u).reason = .link) ∧
        (∀ e, (t.elem e).hold = (s.elem e).hold ∧ (t.elem e).enabled = (s.elem e).enabled) ∧
        t.time = s.time ∧ t.cfg = s.cfg ∧ (∀ q, PortKept (s.port q) (t.port q)) ∧ t.etu.auth = s.etu.auth ∧
        OutputsKept elements units s t ∧
        t.etu.alarmed = s.etu.alarmed ∧ t.zones = s.zones ∧ t.rpu.masks = s.rpu.masks ∧ t.pending = s.pending)) ∧
  ∀ (n : NodeId) (u : UnitId) (order : BlockOrder) (s : State), s.flc.exchange = some n → s.flc.driving = false →
    (s.node n).state = .online → (s.node n).misses = 2 →
    (∀ e c w, s.elemCfg e = some c → w ∈ [c.closedLimit, c.openLimit, c.locked, c.unlocked, c.obstruction].filterMap id →
      w.node ≠ n) →
    let reads : UnitId → Prop := fun v =>
      ∃ w ∈ [(s.unitCfg v).startOut, (s.unitCfg v).running, (s.unitCfg v).fault].filterMap id, w.node = n
    unitInstalled (s.unitCfg u) = true → reads u → (∀ v, v ≠ u → ¬ reads v) → (s.unit u).state = .serving →
    SlotsHeldOnce s →
    (∀ h ∈ (s.unit u).holders, ((s.elem h.elem).activity = .active ∨ (s.elem h.elem).activity = .suspended) ∧
      ∃ o, (s.elem h.elem).op = some o ∧ o.slot = some u) →
    let starts : PathMask → Prop := fun path => ∃ v, v ≠ u ∧ inPath path v = true ∧ (s.unit v).state = .starting
    (∀ path ∈ s.dpm.queue.map Waiter.path ++ (s.unit u).holders.map Holder.path, ∀ v, v ≠ u → inPath path v = true →
      (s.unit v).state = .starting ∨ (s.unit v).state = .fault) →
    (∀ w ∈ s.dpm.queue, starts w.path) →
    ∃ (t : State) (rejoined : List Holder), exec (.fieldAnswerTimeout order) s = .next t ∧
      t.unit u = { state := .fault, reason := .link, holders := [], startTimer := none, idleTimer := none } ∧
      (∀ v, v ≠ u → t.unit v = s.unit v) ∧ t.dpm.queue = rejoined.map (Holder.waiter .path) ++ s.dpm.queue ∧
      rejoined.Sublist (s.unit u).holders ∧
      (∀ h ∈ (s.unit u).holders, ∀ o, (s.elem h.elem).op = some o →
        (h ∈ rejoined ↔ h.multipath = true ∧ starts h.path) ∧
        let revoked : OpRec :=
          { o with
            slot := none, reasons := { o.reasons with path := true }
            suspTimer := if (s.elem h.elem).activity = .active then some 3000 else o.suspTimer }
        (h.multipath = false → t.elem h.elem = (s.elem h.elem).endedWith .pathFailed o) ∧
        (h.multipath = true → starts h.path →
          t.elem h.elem = { s.elem h.elem with activity := .suspended, op := some revoked }) ∧
        (h.multipath = true → ¬ starts h.path → t.elem h.elem = (s.elem h.elem).endedWith .pathFailed revoked)) ∧
      (∀ e, (∀ h ∈ (s.unit u).holders, h.elem ≠ e) → t.elem e = s.elem e) ∧
      t.rpu.events = eventJoined { s with rpu := { s.rpu with events := eventJoined s .nodeLost (byteOf n.val) 0 } }
        .puFault (byteOf u.val) 4 ∧
      OutputsKept ((s.unit u).holders.map Holder.elem) [u] s t ∧
      ∀ w, (s.unitCfg u).startOut = some w →
        (∀ h c, h ∈ (s.unit u).holders → s.elemCfg h.elem = some c → w ∉ elementOutputs c) → t.output w = false

/-! ### Invariants -/

/-- The invariants hold right after reset. -/
def Obligations.InvariantsHoldAtReset : Prop :=
  Bounded State.reset ∧ AlarmsAgree State.reset ∧ OpsMatchActivity State.reset ∧ HoldersUp State.reset ∧
    OrphanTimersRun State.reset ∧ SlotsInCapacity State.reset ∧ SlotsHeldOnce State.reset ∧ ReportsListed State.reset ∧
    ImagesPass State.reset

/-- Every receive and transmit FIFO, the event queue, the call queue and the preemption stack keep to their capacities at
every step (R121, R162, R171, R172). At every step no element holds two slots, waits twice in the slot-wait queue, or holds and
waits at once, and each that does either is a powered element with an operation in progress; so the queue has at most 32 entries
(R89, R91). -/
def Obligations.QueuesKeepCapacity : Prop :=
  (∀ s t : State, Bounded s → step s = .next t → Bounded t) ∧
    ∀ s t : State, SlotsHeldOnce s → step s = .next t → SlotsHeldOnce t ∧ t.dpm.queue.length ≤ 32

/-- The alarmed-zone set and the muted set stay the alarmed zones in RUN, and empty otherwise (R105, R128). -/
def Obligations.AlarmSetsKeepAgreeing : Prop :=
  ∀ s t : State, AlarmsAgree s → step s = .next t → AlarmsAgree t

/-- A hold is HELD only by an UP port, and an orphan timer runs exactly while its orphan set is not empty (R62, R63, R72 to
R75). -/
def Obligations.HoldsFollowLinks : Prop :=
  ∀ s t : State, HoldersUp s → OrphanTimersRun s → step s = .next t → HoldersUp t ∧ OrphanTimersRun t

/-- The weights on a power unit sum to at most 2, and a unit with a holder is SERVING (R91). -/
def Obligations.SlotsKeepCapacity : Prop :=
  ∀ s t : State, SlotsInCapacity s → step s = .next t → SlotsInCapacity t

/-- An element has an operation record exactly when it is not IDLE, and is in the report list exactly when something is
pending, once (R20, R152). -/
def Obligations.RecordsStayConsistent : Prop :=
  ∀ s t : State, OpsMatchActivity s → ReportsListed s → step s = .next t → OpsMatchActivity t ∧ ReportsListed t
end

