-- ==== Sys2Proof/Laws/State.lean ====
section
/-!
SUPPORT. One lemma per field per update of the state: what an update leaves alone (by rfl), and what it does at its place.
-/

namespace Sys2Proof.Machine

/-! ### What an update leaves alone -/

@[simp] theorem modPort_time (s : State) (p : Port) (f : PortRec → PortRec) : (s.modPort p f).time = s.time := rfl
@[simp] theorem modPort_cfg (s : State) (p : Port) (f : PortRec → PortRec) : (s.modPort p f).cfg = s.cfg := rfl
@[simp] theorem modPort_etu (s : State) (p : Port) (f : PortRec → PortRec) : (s.modPort p f).etu = s.etu := rfl
@[simp] theorem modPort_etu_elems (s : State) (p : Port) (f : PortRec → PortRec) : (s.modPort p f).etu.elems = s.etu.elems := rfl
@[simp] theorem modPort_etu_auth (s : State) (p : Port) (f : PortRec → PortRec) : (s.modPort p f).etu.auth = s.etu.auth := rfl
@[simp] theorem modPort_etu_alarmed (s : State) (p : Port) (f : PortRec → PortRec) : (s.modPort p f).etu.alarmed = s.etu.alarmed := rfl
@[simp] theorem modPort_etu_reports (s : State) (p : Port) (f : PortRec → PortRec) : (s.modPort p f).etu.reports = s.etu.reports := rfl
@[simp] theorem modPort_dpm (s : State) (p : Port) (f : PortRec → PortRec) : (s.modPort p f).dpm = s.dpm := rfl
@[simp] theorem modPort_dpm_units (s : State) (p : Port) (f : PortRec → PortRec) : (s.modPort p f).dpm.units = s.dpm.units := rfl
@[simp] theorem modPort_dpm_queue (s : State) (p : Port) (f : PortRec → PortRec) : (s.modPort p f).dpm.queue = s.dpm.queue := rfl
@[simp] theorem modPort_zones (s : State) (p : Port) (f : PortRec → PortRec) : (s.modPort p f).zones = s.zones := rfl
@[simp] theorem modPort_csc (s : State) (p : Port) (f : PortRec → PortRec) : (s.modPort p f).csc = s.csc := rfl
@[simp] theorem modPort_rpu (s : State) (p : Port) (f : PortRec → PortRec) : (s.modPort p f).rpu = s.rpu := rfl
@[simp] theorem modPort_rpu_masks (s : State) (p : Port) (f : PortRec → PortRec) : (s.modPort p f).rpu.masks = s.rpu.masks := rfl
@[simp] theorem modPort_rpu_events (s : State) (p : Port) (f : PortRec → PortRec) : (s.modPort p f).rpu.events = s.rpu.events := rfl
@[simp] theorem modPort_flc (s : State) (p : Port) (f : PortRec → PortRec) : (s.modPort p f).flc = s.flc := rfl
@[simp] theorem modPort_flc_nodes (s : State) (p : Port) (f : PortRec → PortRec) : (s.modPort p f).flc.nodes = s.flc.nodes := rfl
@[simp] theorem modPort_flc_exchange (s : State) (p : Port) (f : PortRec → PortRec) : (s.modPort p f).flc.exchange = s.flc.exchange := rfl
@[simp] theorem modPort_flc_served (s : State) (p : Port) (f : PortRec → PortRec) : (s.modPort p f).flc.served = s.flc.served := rfl
@[simp] theorem modPort_flc_driving (s : State) (p : Port) (f : PortRec → PortRec) : (s.modPort p f).flc.driving = s.flc.driving := rfl
@[simp] theorem modPort_flc_ftxd (s : State) (p : Port) (f : PortRec → PortRec) : (s.modPort p f).flc.ftxd = s.flc.ftxd := rfl
@[simp] theorem modPort_pending (s : State) (p : Port) (f : PortRec → PortRec) : (s.modPort p f).pending = s.pending := rfl
@[simp] theorem modPort_at_elem (s : State) (p : Port) (f : PortRec → PortRec) (i : ElemId) : (s.modPort p f).elem i = s.elem i := rfl
@[simp] theorem modPort_at_auth (s : State) (p : Port) (f : PortRec → PortRec) (i : Port) : (s.modPort p f).auth i = s.auth i := rfl
@[simp] theorem modPort_at_unit (s : State) (p : Port) (f : PortRec → PortRec) (i : UnitId) : (s.modPort p f).unit i = s.unit i := rfl
@[simp] theorem modPort_at_zone (s : State) (p : Port) (f : PortRec → PortRec) (i : ZoneId) : (s.modPort p f).zone i = s.zone i := rfl
@[simp] theorem modPort_at_node (s : State) (p : Port) (f : PortRec → PortRec) (i : NodeId) : (s.modPort p f).node i = s.node i := rfl
@[simp] theorem modPort_at_elemCfg (s : State) (p : Port) (f : PortRec → PortRec) (i : ElemId) : (s.modPort p f).elemCfg i = s.elemCfg i := rfl
@[simp] theorem modPort_at_zoneCfg (s : State) (p : Port) (f : PortRec → PortRec) (i : ZoneId) : (s.modPort p f).zoneCfg i = s.zoneCfg i := rfl
@[simp] theorem modPort_at_unitCfg (s : State) (p : Port) (f : PortRec → PortRec) (i : UnitId) : (s.modPort p f).unitCfg i = s.unitCfg i := rfl
@[simp] theorem modElem_time (s : State) (e : ElemId) (f : ElemRun → ElemRun) : (s.modElem e f).time = s.time := rfl
@[simp] theorem modElem_cfg (s : State) (e : ElemId) (f : ElemRun → ElemRun) : (s.modElem e f).cfg = s.cfg := rfl
@[simp] theorem modElem_ports (s : State) (e : ElemId) (f : ElemRun → ElemRun) : (s.modElem e f).ports = s.ports := rfl
@[simp] theorem modElem_etu_auth (s : State) (e : ElemId) (f : ElemRun → ElemRun) : (s.modElem e f).etu.auth = s.etu.auth := rfl
@[simp] theorem modElem_etu_alarmed (s : State) (e : ElemId) (f : ElemRun → ElemRun) : (s.modElem e f).etu.alarmed = s.etu.alarmed := rfl
@[simp] theorem modElem_etu_reports (s : State) (e : ElemId) (f : ElemRun → ElemRun) : (s.modElem e f).etu.reports = s.etu.reports := rfl
@[simp] theorem modElem_dpm (s : State) (e : ElemId) (f : ElemRun → ElemRun) : (s.modElem e f).dpm = s.dpm := rfl
@[simp] theorem modElem_dpm_units (s : State) (e : ElemId) (f : ElemRun → ElemRun) : (s.modElem e f).dpm.units = s.dpm.units := rfl
@[simp] theorem modElem_dpm_queue (s : State) (e : ElemId) (f : ElemRun → ElemRun) : (s.modElem e f).dpm.queue = s.dpm.queue := rfl
@[simp] theorem modElem_zones (s : State) (e : ElemId) (f : ElemRun → ElemRun) : (s.modElem e f).zones = s.zones := rfl
@[simp] theorem modElem_csc (s : State) (e : ElemId) (f : ElemRun → ElemRun) : (s.modElem e f).csc = s.csc := rfl
@[simp] theorem modElem_rpu (s : State) (e : ElemId) (f : ElemRun → ElemRun) : (s.modElem e f).rpu = s.rpu := rfl
@[simp] theorem modElem_rpu_masks (s : State) (e : ElemId) (f : ElemRun → ElemRun) : (s.modElem e f).rpu.masks = s.rpu.masks := rfl
@[simp] theorem modElem_rpu_events (s : State) (e : ElemId) (f : ElemRun → ElemRun) : (s.modElem e f).rpu.events = s.rpu.events := rfl
@[simp] theorem modElem_flc (s : State) (e : ElemId) (f : ElemRun → ElemRun) : (s.modElem e f).flc = s.flc := rfl
@[simp] theorem modElem_flc_nodes (s : State) (e : ElemId) (f : ElemRun → ElemRun) : (s.modElem e f).flc.nodes = s.flc.nodes := rfl
@[simp] theorem modElem_flc_exchange (s : State) (e : ElemId) (f : ElemRun → ElemRun) : (s.modElem e f).flc.exchange = s.flc.exchange := rfl
@[simp] theorem modElem_flc_served (s : State) (e : ElemId) (f : ElemRun → ElemRun) : (s.modElem e f).flc.served = s.flc.served := rfl
@[simp] theorem modElem_flc_driving (s : State) (e : ElemId) (f : ElemRun → ElemRun) : (s.modElem e f).flc.driving = s.flc.driving := rfl
@[simp] theorem modElem_flc_ftxd (s : State) (e : ElemId) (f : ElemRun → ElemRun) : (s.modElem e f).flc.ftxd = s.flc.ftxd := rfl
@[simp] theorem modElem_pending (s : State) (e : ElemId) (f : ElemRun → ElemRun) : (s.modElem e f).pending = s.pending := rfl
@[simp] theorem modElem_at_port (s : State) (e : ElemId) (f : ElemRun → ElemRun) (i : Port) : (s.modElem e f).port i = s.port i := rfl
@[simp] theorem modElem_at_auth (s : State) (e : ElemId) (f : ElemRun → ElemRun) (i : Port) : (s.modElem e f).auth i = s.auth i := rfl
@[simp] theorem modElem_at_unit (s : State) (e : ElemId) (f : ElemRun → ElemRun) (i : UnitId) : (s.modElem e f).unit i = s.unit i := rfl
@[simp] theorem modElem_at_zone (s : State) (e : ElemId) (f : ElemRun → ElemRun) (i : ZoneId) : (s.modElem e f).zone i = s.zone i := rfl
@[simp] theorem modElem_at_node (s : State) (e : ElemId) (f : ElemRun → ElemRun) (i : NodeId) : (s.modElem e f).node i = s.node i := rfl
@[simp] theorem modElem_at_role (s : State) (e : ElemId) (f : ElemRun → ElemRun) (i : Port) : (s.modElem e f).role i = s.role i := rfl
@[simp] theorem modElem_at_elemCfg (s : State) (e : ElemId) (f : ElemRun → ElemRun) (i : ElemId) : (s.modElem e f).elemCfg i = s.elemCfg i := rfl
@[simp] theorem modElem_at_zoneCfg (s : State) (e : ElemId) (f : ElemRun → ElemRun) (i : ZoneId) : (s.modElem e f).zoneCfg i = s.zoneCfg i := rfl
@[simp] theorem modElem_at_unitCfg (s : State) (e : ElemId) (f : ElemRun → ElemRun) (i : UnitId) : (s.modElem e f).unitCfg i = s.unitCfg i := rfl
@[simp] theorem modAuth_time (s : State) (p : Port) (f : AuthRec → AuthRec) : (s.modAuth p f).time = s.time := rfl
@[simp] theorem modAuth_cfg (s : State) (p : Port) (f : AuthRec → AuthRec) : (s.modAuth p f).cfg = s.cfg := rfl
@[simp] theorem modAuth_ports (s : State) (p : Port) (f : AuthRec → AuthRec) : (s.modAuth p f).ports = s.ports := rfl
@[simp] theorem modAuth_etu_elems (s : State) (p : Port) (f : AuthRec → AuthRec) : (s.modAuth p f).etu.elems = s.etu.elems := rfl
@[simp] theorem modAuth_etu_alarmed (s : State) (p : Port) (f : AuthRec → AuthRec) : (s.modAuth p f).etu.alarmed = s.etu.alarmed := rfl
@[simp] theorem modAuth_etu_reports (s : State) (p : Port) (f : AuthRec → AuthRec) : (s.modAuth p f).etu.reports = s.etu.reports := rfl
@[simp] theorem modAuth_dpm (s : State) (p : Port) (f : AuthRec → AuthRec) : (s.modAuth p f).dpm = s.dpm := rfl
@[simp] theorem modAuth_dpm_units (s : State) (p : Port) (f : AuthRec → AuthRec) : (s.modAuth p f).dpm.units = s.dpm.units := rfl
@[simp] theorem modAuth_dpm_queue (s : State) (p : Port) (f : AuthRec → AuthRec) : (s.modAuth p f).dpm.queue = s.dpm.queue := rfl
@[simp] theorem modAuth_zones (s : State) (p : Port) (f : AuthRec → AuthRec) : (s.modAuth p f).zones = s.zones := rfl
@[simp] theorem modAuth_csc (s : State) (p : Port) (f : AuthRec → AuthRec) : (s.modAuth p f).csc = s.csc := rfl
@[simp] theorem modAuth_rpu (s : State) (p : Port) (f : AuthRec → AuthRec) : (s.modAuth p f).rpu = s.rpu := rfl
@[simp] theorem modAuth_rpu_masks (s : State) (p : Port) (f : AuthRec → AuthRec) : (s.modAuth p f).rpu.masks = s.rpu.masks := rfl
@[simp] theorem modAuth_rpu_events (s : State) (p : Port) (f : AuthRec → AuthRec) : (s.modAuth p f).rpu.events = s.rpu.events := rfl
@[simp] theorem modAuth_flc (s : State) (p : Port) (f : AuthRec → AuthRec) : (s.modAuth p f).flc = s.flc := rfl
@[simp] theorem modAuth_flc_nodes (s : State) (p : Port) (f : AuthRec → AuthRec) : (s.modAuth p f).flc.nodes = s.flc.nodes := rfl
@[simp] theorem modAuth_flc_exchange (s : State) (p : Port) (f : AuthRec → AuthRec) : (s.modAuth p f).flc.exchange = s.flc.exchange := rfl
@[simp] theorem modAuth_flc_served (s : State) (p : Port) (f : AuthRec → AuthRec) : (s.modAuth p f).flc.served = s.flc.served := rfl
@[simp] theorem modAuth_flc_driving (s : State) (p : Port) (f : AuthRec → AuthRec) : (s.modAuth p f).flc.driving = s.flc.driving := rfl
@[simp] theorem modAuth_flc_ftxd (s : State) (p : Port) (f : AuthRec → AuthRec) : (s.modAuth p f).flc.ftxd = s.flc.ftxd := rfl
@[simp] theorem modAuth_pending (s : State) (p : Port) (f : AuthRec → AuthRec) : (s.modAuth p f).pending = s.pending := rfl
@[simp] theorem modAuth_at_port (s : State) (p : Port) (f : AuthRec → AuthRec) (i : Port) : (s.modAuth p f).port i = s.port i := rfl
@[simp] theorem modAuth_at_elem (s : State) (p : Port) (f : AuthRec → AuthRec) (i : ElemId) : (s.modAuth p f).elem i = s.elem i := rfl
@[simp] theorem modAuth_at_unit (s : State) (p : Port) (f : AuthRec → AuthRec) (i : UnitId) : (s.modAuth p f).unit i = s.unit i := rfl
@[simp] theorem modAuth_at_zone (s : State) (p : Port) (f : AuthRec → AuthRec) (i : ZoneId) : (s.modAuth p f).zone i = s.zone i := rfl
@[simp] theorem modAuth_at_node (s : State) (p : Port) (f : AuthRec → AuthRec) (i : NodeId) : (s.modAuth p f).node i = s.node i := rfl
@[simp] theorem modAuth_at_role (s : State) (p : Port) (f : AuthRec → AuthRec) (i : Port) : (s.modAuth p f).role i = s.role i := rfl
@[simp] theorem modAuth_at_elemCfg (s : State) (p : Port) (f : AuthRec → AuthRec) (i : ElemId) : (s.modAuth p f).elemCfg i = s.elemCfg i := rfl
@[simp] theorem modAuth_at_zoneCfg (s : State) (p : Port) (f : AuthRec → AuthRec) (i : ZoneId) : (s.modAuth p f).zoneCfg i = s.zoneCfg i := rfl
@[simp] theorem modAuth_at_unitCfg (s : State) (p : Port) (f : AuthRec → AuthRec) (i : UnitId) : (s.modAuth p f).unitCfg i = s.unitCfg i := rfl
@[simp] theorem modUnit_time (s : State) (u : UnitId) (f : UnitRun → UnitRun) : (s.modUnit u f).time = s.time := rfl
@[simp] theorem modUnit_cfg (s : State) (u : UnitId) (f : UnitRun → UnitRun) : (s.modUnit u f).cfg = s.cfg := rfl
@[simp] theorem modUnit_ports (s : State) (u : UnitId) (f : UnitRun → UnitRun) : (s.modUnit u f).ports = s.ports := rfl
@[simp] theorem modUnit_etu (s : State) (u : UnitId) (f : UnitRun → UnitRun) : (s.modUnit u f).etu = s.etu := rfl
@[simp] theorem modUnit_etu_elems (s : State) (u : UnitId) (f : UnitRun → UnitRun) : (s.modUnit u f).etu.elems = s.etu.elems := rfl
@[simp] theorem modUnit_etu_auth (s : State) (u : UnitId) (f : UnitRun → UnitRun) : (s.modUnit u f).etu.auth = s.etu.auth := rfl
@[simp] theorem modUnit_etu_alarmed (s : State) (u : UnitId) (f : UnitRun → UnitRun) : (s.modUnit u f).etu.alarmed = s.etu.alarmed := rfl
@[simp] theorem modUnit_etu_reports (s : State) (u : UnitId) (f : UnitRun → UnitRun) : (s.modUnit u f).etu.reports = s.etu.reports := rfl
@[simp] theorem modUnit_dpm_queue (s : State) (u : UnitId) (f : UnitRun → UnitRun) : (s.modUnit u f).dpm.queue = s.dpm.queue := rfl
@[simp] theorem modUnit_zones (s : State) (u : UnitId) (f : UnitRun → UnitRun) : (s.modUnit u f).zones = s.zones := rfl
@[simp] theorem modUnit_csc (s : State) (u : UnitId) (f : UnitRun → UnitRun) : (s.modUnit u f).csc = s.csc := rfl
@[simp] theorem modUnit_rpu (s : State) (u : UnitId) (f : UnitRun → UnitRun) : (s.modUnit u f).rpu = s.rpu := rfl
@[simp] theorem modUnit_rpu_masks (s : State) (u : UnitId) (f : UnitRun → UnitRun) : (s.modUnit u f).rpu.masks = s.rpu.masks := rfl
@[simp] theorem modUnit_rpu_events (s : State) (u : UnitId) (f : UnitRun → UnitRun) : (s.modUnit u f).rpu.events = s.rpu.events := rfl
@[simp] theorem modUnit_flc (s : State) (u : UnitId) (f : UnitRun → UnitRun) : (s.modUnit u f).flc = s.flc := rfl
@[simp] theorem modUnit_flc_nodes (s : State) (u : UnitId) (f : UnitRun → UnitRun) : (s.modUnit u f).flc.nodes = s.flc.nodes := rfl
@[simp] theorem modUnit_flc_exchange (s : State) (u : UnitId) (f : UnitRun → UnitRun) : (s.modUnit u f).flc.exchange = s.flc.exchange := rfl
@[simp] theorem modUnit_flc_served (s : State) (u : UnitId) (f : UnitRun → UnitRun) : (s.modUnit u f).flc.served = s.flc.served := rfl
@[simp] theorem modUnit_flc_driving (s : State) (u : UnitId) (f : UnitRun → UnitRun) : (s.modUnit u f).flc.driving = s.flc.driving := rfl
@[simp] theorem modUnit_flc_ftxd (s : State) (u : UnitId) (f : UnitRun → UnitRun) : (s.modUnit u f).flc.ftxd = s.flc.ftxd := rfl
@[simp] theorem modUnit_pending (s : State) (u : UnitId) (f : UnitRun → UnitRun) : (s.modUnit u f).pending = s.pending := rfl
@[simp] theorem modUnit_at_port (s : State) (u : UnitId) (f : UnitRun → UnitRun) (i : Port) : (s.modUnit u f).port i = s.port i := rfl
@[simp] theorem modUnit_at_elem (s : State) (u : UnitId) (f : UnitRun → UnitRun) (i : ElemId) : (s.modUnit u f).elem i = s.elem i := rfl
@[simp] theorem modUnit_at_auth (s : State) (u : UnitId) (f : UnitRun → UnitRun) (i : Port) : (s.modUnit u f).auth i = s.auth i := rfl
@[simp] theorem modUnit_at_zone (s : State) (u : UnitId) (f : UnitRun → UnitRun) (i : ZoneId) : (s.modUnit u f).zone i = s.zone i := rfl
@[simp] theorem modUnit_at_node (s : State) (u : UnitId) (f : UnitRun → UnitRun) (i : NodeId) : (s.modUnit u f).node i = s.node i := rfl
@[simp] theorem modUnit_at_role (s : State) (u : UnitId) (f : UnitRun → UnitRun) (i : Port) : (s.modUnit u f).role i = s.role i := rfl
@[simp] theorem modUnit_at_elemCfg (s : State) (u : UnitId) (f : UnitRun → UnitRun) (i : ElemId) : (s.modUnit u f).elemCfg i = s.elemCfg i := rfl
@[simp] theorem modUnit_at_zoneCfg (s : State) (u : UnitId) (f : UnitRun → UnitRun) (i : ZoneId) : (s.modUnit u f).zoneCfg i = s.zoneCfg i := rfl
@[simp] theorem modUnit_at_unitCfg (s : State) (u : UnitId) (f : UnitRun → UnitRun) (i : UnitId) : (s.modUnit u f).unitCfg i = s.unitCfg i := rfl
@[simp] theorem modZone_time (s : State) (z : ZoneId) (f : ZoneRun → ZoneRun) : (s.modZone z f).time = s.time := rfl
@[simp] theorem modZone_cfg (s : State) (z : ZoneId) (f : ZoneRun → ZoneRun) : (s.modZone z f).cfg = s.cfg := rfl
@[simp] theorem modZone_ports (s : State) (z : ZoneId) (f : ZoneRun → ZoneRun) : (s.modZone z f).ports = s.ports := rfl
@[simp] theorem modZone_etu (s : State) (z : ZoneId) (f : ZoneRun → ZoneRun) : (s.modZone z f).etu = s.etu := rfl
@[simp] theorem modZone_etu_elems (s : State) (z : ZoneId) (f : ZoneRun → ZoneRun) : (s.modZone z f).etu.elems = s.etu.elems := rfl
@[simp] theorem modZone_etu_auth (s : State) (z : ZoneId) (f : ZoneRun → ZoneRun) : (s.modZone z f).etu.auth = s.etu.auth := rfl
@[simp] theorem modZone_etu_alarmed (s : State) (z : ZoneId) (f : ZoneRun → ZoneRun) : (s.modZone z f).etu.alarmed = s.etu.alarmed := rfl
@[simp] theorem modZone_etu_reports (s : State) (z : ZoneId) (f : ZoneRun → ZoneRun) : (s.modZone z f).etu.reports = s.etu.reports := rfl
@[simp] theorem modZone_dpm (s : State) (z : ZoneId) (f : ZoneRun → ZoneRun) : (s.modZone z f).dpm = s.dpm := rfl
@[simp] theorem modZone_dpm_units (s : State) (z : ZoneId) (f : ZoneRun → ZoneRun) : (s.modZone z f).dpm.units = s.dpm.units := rfl
@[simp] theorem modZone_dpm_queue (s : State) (z : ZoneId) (f : ZoneRun → ZoneRun) : (s.modZone z f).dpm.queue = s.dpm.queue := rfl
@[simp] theorem modZone_csc (s : State) (z : ZoneId) (f : ZoneRun → ZoneRun) : (s.modZone z f).csc = s.csc := rfl
@[simp] theorem modZone_rpu (s : State) (z : ZoneId) (f : ZoneRun → ZoneRun) : (s.modZone z f).rpu = s.rpu := rfl
@[simp] theorem modZone_rpu_masks (s : State) (z : ZoneId) (f : ZoneRun → ZoneRun) : (s.modZone z f).rpu.masks = s.rpu.masks := rfl
@[simp] theorem modZone_rpu_events (s : State) (z : ZoneId) (f : ZoneRun → ZoneRun) : (s.modZone z f).rpu.events = s.rpu.events := rfl
@[simp] theorem modZone_flc (s : State) (z : ZoneId) (f : ZoneRun → ZoneRun) : (s.modZone z f).flc = s.flc := rfl
@[simp] theorem modZone_flc_nodes (s : State) (z : ZoneId) (f : ZoneRun → ZoneRun) : (s.modZone z f).flc.nodes = s.flc.nodes := rfl
@[simp] theorem modZone_flc_exchange (s : State) (z : ZoneId) (f : ZoneRun → ZoneRun) : (s.modZone z f).flc.exchange = s.flc.exchange := rfl
@[simp] theorem modZone_flc_served (s : State) (z : ZoneId) (f : ZoneRun → ZoneRun) : (s.modZone z f).flc.served = s.flc.served := rfl
@[simp] theorem modZone_flc_driving (s : State) (z : ZoneId) (f : ZoneRun → ZoneRun) : (s.modZone z f).flc.driving = s.flc.driving := rfl
@[simp] theorem modZone_flc_ftxd (s : State) (z : ZoneId) (f : ZoneRun → ZoneRun) : (s.modZone z f).flc.ftxd = s.flc.ftxd := rfl
@[simp] theorem modZone_pending (s : State) (z : ZoneId) (f : ZoneRun → ZoneRun) : (s.modZone z f).pending = s.pending := rfl
@[simp] theorem modZone_at_port (s : State) (z : ZoneId) (f : ZoneRun → ZoneRun) (i : Port) : (s.modZone z f).port i = s.port i := rfl
@[simp] theorem modZone_at_elem (s : State) (z : ZoneId) (f : ZoneRun → ZoneRun) (i : ElemId) : (s.modZone z f).elem i = s.elem i := rfl
@[simp] theorem modZone_at_auth (s : State) (z : ZoneId) (f : ZoneRun → ZoneRun) (i : Port) : (s.modZone z f).auth i = s.auth i := rfl
@[simp] theorem modZone_at_unit (s : State) (z : ZoneId) (f : ZoneRun → ZoneRun) (i : UnitId) : (s.modZone z f).unit i = s.unit i := rfl
@[simp] theorem modZone_at_node (s : State) (z : ZoneId) (f : ZoneRun → ZoneRun) (i : NodeId) : (s.modZone z f).node i = s.node i := rfl
@[simp] theorem modZone_at_role (s : State) (z : ZoneId) (f : ZoneRun → ZoneRun) (i : Port) : (s.modZone z f).role i = s.role i := rfl
@[simp] theorem modZone_at_elemCfg (s : State) (z : ZoneId) (f : ZoneRun → ZoneRun) (i : ElemId) : (s.modZone z f).elemCfg i = s.elemCfg i := rfl
@[simp] theorem modZone_at_zoneCfg (s : State) (z : ZoneId) (f : ZoneRun → ZoneRun) (i : ZoneId) : (s.modZone z f).zoneCfg i = s.zoneCfg i := rfl
@[simp] theorem modZone_at_unitCfg (s : State) (z : ZoneId) (f : ZoneRun → ZoneRun) (i : UnitId) : (s.modZone z f).unitCfg i = s.unitCfg i := rfl
@[simp] theorem modNode_time (s : State) (n : NodeId) (f : NodeRun → NodeRun) : (s.modNode n f).time = s.time := rfl
@[simp] theorem modNode_cfg (s : State) (n : NodeId) (f : NodeRun → NodeRun) : (s.modNode n f).cfg = s.cfg := rfl
@[simp] theorem modNode_ports (s : State) (n : NodeId) (f : NodeRun → NodeRun) : (s.modNode n f).ports = s.ports := rfl
@[simp] theorem modNode_etu (s : State) (n : NodeId) (f : NodeRun → NodeRun) : (s.modNode n f).etu = s.etu := rfl
@[simp] theorem modNode_etu_elems (s : State) (n : NodeId) (f : NodeRun → NodeRun) : (s.modNode n f).etu.elems = s.etu.elems := rfl
@[simp] theorem modNode_etu_auth (s : State) (n : NodeId) (f : NodeRun → NodeRun) : (s.modNode n f).etu.auth = s.etu.auth := rfl
@[simp] theorem modNode_etu_alarmed (s : State) (n : NodeId) (f : NodeRun → NodeRun) : (s.modNode n f).etu.alarmed = s.etu.alarmed := rfl
@[simp] theorem modNode_etu_reports (s : State) (n : NodeId) (f : NodeRun → NodeRun) : (s.modNode n f).etu.reports = s.etu.reports := rfl
@[simp] theorem modNode_dpm (s : State) (n : NodeId) (f : NodeRun → NodeRun) : (s.modNode n f).dpm = s.dpm := rfl
@[simp] theorem modNode_dpm_units (s : State) (n : NodeId) (f : NodeRun → NodeRun) : (s.modNode n f).dpm.units = s.dpm.units := rfl
@[simp] theorem modNode_dpm_queue (s : State) (n : NodeId) (f : NodeRun → NodeRun) : (s.modNode n f).dpm.queue = s.dpm.queue := rfl
@[simp] theorem modNode_zones (s : State) (n : NodeId) (f : NodeRun → NodeRun) : (s.modNode n f).zones = s.zones := rfl
@[simp] theorem modNode_csc (s : State) (n : NodeId) (f : NodeRun → NodeRun) : (s.modNode n f).csc = s.csc := rfl
@[simp] theorem modNode_rpu (s : State) (n : NodeId) (f : NodeRun → NodeRun) : (s.modNode n f).rpu = s.rpu := rfl
@[simp] theorem modNode_rpu_masks (s : State) (n : NodeId) (f : NodeRun → NodeRun) : (s.modNode n f).rpu.masks = s.rpu.masks := rfl
@[simp] theorem modNode_rpu_events (s : State) (n : NodeId) (f : NodeRun → NodeRun) : (s.modNode n f).rpu.events = s.rpu.events := rfl
@[simp] theorem modNode_flc_exchange (s : State) (n : NodeId) (f : NodeRun → NodeRun) : (s.modNode n f).flc.exchange = s.flc.exchange := rfl
@[simp] theorem modNode_flc_served (s : State) (n : NodeId) (f : NodeRun → NodeRun) : (s.modNode n f).flc.served = s.flc.served := rfl
@[simp] theorem modNode_flc_driving (s : State) (n : NodeId) (f : NodeRun → NodeRun) : (s.modNode n f).flc.driving = s.flc.driving := rfl
@[simp] theorem modNode_flc_ftxd (s : State) (n : NodeId) (f : NodeRun → NodeRun) : (s.modNode n f).flc.ftxd = s.flc.ftxd := rfl
@[simp] theorem modNode_pending (s : State) (n : NodeId) (f : NodeRun → NodeRun) : (s.modNode n f).pending = s.pending := rfl
@[simp] theorem modNode_at_port (s : State) (n : NodeId) (f : NodeRun → NodeRun) (i : Port) : (s.modNode n f).port i = s.port i := rfl
@[simp] theorem modNode_at_elem (s : State) (n : NodeId) (f : NodeRun → NodeRun) (i : ElemId) : (s.modNode n f).elem i = s.elem i := rfl
@[simp] theorem modNode_at_auth (s : State) (n : NodeId) (f : NodeRun → NodeRun) (i : Port) : (s.modNode n f).auth i = s.auth i := rfl
@[simp] theorem modNode_at_unit (s : State) (n : NodeId) (f : NodeRun → NodeRun) (i : UnitId) : (s.modNode n f).unit i = s.unit i := rfl
@[simp] theorem modNode_at_zone (s : State) (n : NodeId) (f : NodeRun → NodeRun) (i : ZoneId) : (s.modNode n f).zone i = s.zone i := rfl
@[simp] theorem modNode_at_role (s : State) (n : NodeId) (f : NodeRun → NodeRun) (i : Port) : (s.modNode n f).role i = s.role i := rfl
@[simp] theorem modNode_at_elemCfg (s : State) (n : NodeId) (f : NodeRun → NodeRun) (i : ElemId) : (s.modNode n f).elemCfg i = s.elemCfg i := rfl
@[simp] theorem modNode_at_zoneCfg (s : State) (n : NodeId) (f : NodeRun → NodeRun) (i : ZoneId) : (s.modNode n f).zoneCfg i = s.zoneCfg i := rfl
@[simp] theorem modNode_at_unitCfg (s : State) (n : NodeId) (f : NodeRun → NodeRun) (i : UnitId) : (s.modNode n f).unitCfg i = s.unitCfg i := rfl
@[simp] theorem modCsc_time (s : State) (f : Csc → Csc) : (s.modCsc f).time = s.time := rfl
@[simp] theorem modCsc_cfg (s : State) (f : Csc → Csc) : (s.modCsc f).cfg = s.cfg := rfl
@[simp] theorem modCsc_ports (s : State) (f : Csc → Csc) : (s.modCsc f).ports = s.ports := rfl
@[simp] theorem modCsc_etu (s : State) (f : Csc → Csc) : (s.modCsc f).etu = s.etu := rfl
@[simp] theorem modCsc_etu_elems (s : State) (f : Csc → Csc) : (s.modCsc f).etu.elems = s.etu.elems := rfl
@[simp] theorem modCsc_etu_auth (s : State) (f : Csc → Csc) : (s.modCsc f).etu.auth = s.etu.auth := rfl
@[simp] theorem modCsc_etu_alarmed (s : State) (f : Csc → Csc) : (s.modCsc f).etu.alarmed = s.etu.alarmed := rfl
@[simp] theorem modCsc_etu_reports (s : State) (f : Csc → Csc) : (s.modCsc f).etu.reports = s.etu.reports := rfl
@[simp] theorem modCsc_dpm (s : State) (f : Csc → Csc) : (s.modCsc f).dpm = s.dpm := rfl
@[simp] theorem modCsc_dpm_units (s : State) (f : Csc → Csc) : (s.modCsc f).dpm.units = s.dpm.units := rfl
@[simp] theorem modCsc_dpm_queue (s : State) (f : Csc → Csc) : (s.modCsc f).dpm.queue = s.dpm.queue := rfl
@[simp] theorem modCsc_zones (s : State) (f : Csc → Csc) : (s.modCsc f).zones = s.zones := rfl
@[simp] theorem modCsc_rpu (s : State) (f : Csc → Csc) : (s.modCsc f).rpu = s.rpu := rfl
@[simp] theorem modCsc_rpu_masks (s : State) (f : Csc → Csc) : (s.modCsc f).rpu.masks = s.rpu.masks := rfl
@[simp] theorem modCsc_rpu_events (s : State) (f : Csc → Csc) : (s.modCsc f).rpu.events = s.rpu.events := rfl
@[simp] theorem modCsc_flc (s : State) (f : Csc → Csc) : (s.modCsc f).flc = s.flc := rfl
@[simp] theorem modCsc_flc_nodes (s : State) (f : Csc → Csc) : (s.modCsc f).flc.nodes = s.flc.nodes := rfl
@[simp] theorem modCsc_flc_exchange (s : State) (f : Csc → Csc) : (s.modCsc f).flc.exchange = s.flc.exchange := rfl
@[simp] theorem modCsc_flc_served (s : State) (f : Csc → Csc) : (s.modCsc f).flc.served = s.flc.served := rfl
@[simp] theorem modCsc_flc_driving (s : State) (f : Csc → Csc) : (s.modCsc f).flc.driving = s.flc.driving := rfl
@[simp] theorem modCsc_flc_ftxd (s : State) (f : Csc → Csc) : (s.modCsc f).flc.ftxd = s.flc.ftxd := rfl
@[simp] theorem modCsc_pending (s : State) (f : Csc → Csc) : (s.modCsc f).pending = s.pending := rfl
@[simp] theorem modCsc_at_port (s : State) (f : Csc → Csc) (i : Port) : (s.modCsc f).port i = s.port i := rfl
@[simp] theorem modCsc_at_elem (s : State) (f : Csc → Csc) (i : ElemId) : (s.modCsc f).elem i = s.elem i := rfl
@[simp] theorem modCsc_at_auth (s : State) (f : Csc → Csc) (i : Port) : (s.modCsc f).auth i = s.auth i := rfl
@[simp] theorem modCsc_at_unit (s : State) (f : Csc → Csc) (i : UnitId) : (s.modCsc f).unit i = s.unit i := rfl
@[simp] theorem modCsc_at_zone (s : State) (f : Csc → Csc) (i : ZoneId) : (s.modCsc f).zone i = s.zone i := rfl
@[simp] theorem modCsc_at_node (s : State) (f : Csc → Csc) (i : NodeId) : (s.modCsc f).node i = s.node i := rfl
@[simp] theorem modCsc_at_role (s : State) (f : Csc → Csc) (i : Port) : (s.modCsc f).role i = s.role i := rfl
@[simp] theorem modCsc_at_elemCfg (s : State) (f : Csc → Csc) (i : ElemId) : (s.modCsc f).elemCfg i = s.elemCfg i := rfl
@[simp] theorem modCsc_at_zoneCfg (s : State) (f : Csc → Csc) (i : ZoneId) : (s.modCsc f).zoneCfg i = s.zoneCfg i := rfl
@[simp] theorem modCsc_at_unitCfg (s : State) (f : Csc → Csc) (i : UnitId) : (s.modCsc f).unitCfg i = s.unitCfg i := rfl
@[simp] theorem modPa_time (s : State) (f : PaPort → PaPort) : (s.modPa f).time = s.time := rfl
@[simp] theorem modPa_cfg (s : State) (f : PaPort → PaPort) : (s.modPa f).cfg = s.cfg := rfl
@[simp] theorem modPa_ports (s : State) (f : PaPort → PaPort) : (s.modPa f).ports = s.ports := rfl
@[simp] theorem modPa_etu (s : State) (f : PaPort → PaPort) : (s.modPa f).etu = s.etu := rfl
@[simp] theorem modPa_etu_elems (s : State) (f : PaPort → PaPort) : (s.modPa f).etu.elems = s.etu.elems := rfl
@[simp] theorem modPa_etu_auth (s : State) (f : PaPort → PaPort) : (s.modPa f).etu.auth = s.etu.auth := rfl
@[simp] theorem modPa_etu_alarmed (s : State) (f : PaPort → PaPort) : (s.modPa f).etu.alarmed = s.etu.alarmed := rfl
@[simp] theorem modPa_etu_reports (s : State) (f : PaPort → PaPort) : (s.modPa f).etu.reports = s.etu.reports := rfl
@[simp] theorem modPa_dpm (s : State) (f : PaPort → PaPort) : (s.modPa f).dpm = s.dpm := rfl
@[simp] theorem modPa_dpm_units (s : State) (f : PaPort → PaPort) : (s.modPa f).dpm.units = s.dpm.units := rfl
@[simp] theorem modPa_dpm_queue (s : State) (f : PaPort → PaPort) : (s.modPa f).dpm.queue = s.dpm.queue := rfl
@[simp] theorem modPa_zones (s : State) (f : PaPort → PaPort) : (s.modPa f).zones = s.zones := rfl
@[simp] theorem modPa_rpu (s : State) (f : PaPort → PaPort) : (s.modPa f).rpu = s.rpu := rfl
@[simp] theorem modPa_rpu_masks (s : State) (f : PaPort → PaPort) : (s.modPa f).rpu.masks = s.rpu.masks := rfl
@[simp] theorem modPa_rpu_events (s : State) (f : PaPort → PaPort) : (s.modPa f).rpu.events = s.rpu.events := rfl
@[simp] theorem modPa_flc (s : State) (f : PaPort → PaPort) : (s.modPa f).flc = s.flc := rfl
@[simp] theorem modPa_flc_nodes (s : State) (f : PaPort → PaPort) : (s.modPa f).flc.nodes = s.flc.nodes := rfl
@[simp] theorem modPa_flc_exchange (s : State) (f : PaPort → PaPort) : (s.modPa f).flc.exchange = s.flc.exchange := rfl
@[simp] theorem modPa_flc_served (s : State) (f : PaPort → PaPort) : (s.modPa f).flc.served = s.flc.served := rfl
@[simp] theorem modPa_flc_driving (s : State) (f : PaPort → PaPort) : (s.modPa f).flc.driving = s.flc.driving := rfl
@[simp] theorem modPa_flc_ftxd (s : State) (f : PaPort → PaPort) : (s.modPa f).flc.ftxd = s.flc.ftxd := rfl
@[simp] theorem modPa_pending (s : State) (f : PaPort → PaPort) : (s.modPa f).pending = s.pending := rfl
@[simp] theorem modPa_at_port (s : State) (f : PaPort → PaPort) (i : Port) : (s.modPa f).port i = s.port i := rfl
@[simp] theorem modPa_at_elem (s : State) (f : PaPort → PaPort) (i : ElemId) : (s.modPa f).elem i = s.elem i := rfl
@[simp] theorem modPa_at_auth (s : State) (f : PaPort → PaPort) (i : Port) : (s.modPa f).auth i = s.auth i := rfl
@[simp] theorem modPa_at_unit (s : State) (f : PaPort → PaPort) (i : UnitId) : (s.modPa f).unit i = s.unit i := rfl
@[simp] theorem modPa_at_zone (s : State) (f : PaPort → PaPort) (i : ZoneId) : (s.modPa f).zone i = s.zone i := rfl
@[simp] theorem modPa_at_node (s : State) (f : PaPort → PaPort) (i : NodeId) : (s.modPa f).node i = s.node i := rfl
@[simp] theorem modPa_at_role (s : State) (f : PaPort → PaPort) (i : Port) : (s.modPa f).role i = s.role i := rfl
@[simp] theorem modPa_at_elemCfg (s : State) (f : PaPort → PaPort) (i : ElemId) : (s.modPa f).elemCfg i = s.elemCfg i := rfl
@[simp] theorem modPa_at_zoneCfg (s : State) (f : PaPort → PaPort) (i : ZoneId) : (s.modPa f).zoneCfg i = s.zoneCfg i := rfl
@[simp] theorem modPa_at_unitCfg (s : State) (f : PaPort → PaPort) (i : UnitId) : (s.modPa f).unitCfg i = s.unitCfg i := rfl
@[simp] theorem setQueue_time (s : State) (q : List Waiter) : (s.setQueue q).time = s.time := rfl
@[simp] theorem setQueue_cfg (s : State) (q : List Waiter) : (s.setQueue q).cfg = s.cfg := rfl
@[simp] theorem setQueue_ports (s : State) (q : List Waiter) : (s.setQueue q).ports = s.ports := rfl
@[simp] theorem setQueue_etu (s : State) (q : List Waiter) : (s.setQueue q).etu = s.etu := rfl
@[simp] theorem setQueue_etu_elems (s : State) (q : List Waiter) : (s.setQueue q).etu.elems = s.etu.elems := rfl
@[simp] theorem setQueue_etu_auth (s : State) (q : List Waiter) : (s.setQueue q).etu.auth = s.etu.auth := rfl
@[simp] theorem setQueue_etu_alarmed (s : State) (q : List Waiter) : (s.setQueue q).etu.alarmed = s.etu.alarmed := rfl
@[simp] theorem setQueue_etu_reports (s : State) (q : List Waiter) : (s.setQueue q).etu.reports = s.etu.reports := rfl
@[simp] theorem setQueue_dpm_units (s : State) (q : List Waiter) : (s.setQueue q).dpm.units = s.dpm.units := rfl
@[simp] theorem setQueue_zones (s : State) (q : List Waiter) : (s.setQueue q).zones = s.zones := rfl
@[simp] theorem setQueue_csc (s : State) (q : List Waiter) : (s.setQueue q).csc = s.csc := rfl
@[simp] theorem setQueue_rpu (s : State) (q : List Waiter) : (s.setQueue q).rpu = s.rpu := rfl
@[simp] theorem setQueue_rpu_masks (s : State) (q : List Waiter) : (s.setQueue q).rpu.masks = s.rpu.masks := rfl
@[simp] theorem setQueue_rpu_events (s : State) (q : List Waiter) : (s.setQueue q).rpu.events = s.rpu.events := rfl
@[simp] theorem setQueue_flc (s : State) (q : List Waiter) : (s.setQueue q).flc = s.flc := rfl
@[simp] theorem setQueue_flc_nodes (s : State) (q : List Waiter) : (s.setQueue q).flc.nodes = s.flc.nodes := rfl
@[simp] theorem setQueue_flc_exchange (s : State) (q : List Waiter) : (s.setQueue q).flc.exchange = s.flc.exchange := rfl
@[simp] theorem setQueue_flc_served (s : State) (q : List Waiter) : (s.setQueue q).flc.served = s.flc.served := rfl
@[simp] theorem setQueue_flc_driving (s : State) (q : List Waiter) : (s.setQueue q).flc.driving = s.flc.driving := rfl
@[simp] theorem setQueue_flc_ftxd (s : State) (q : List Waiter) : (s.setQueue q).flc.ftxd = s.flc.ftxd := rfl
@[simp] theorem setQueue_pending (s : State) (q : List Waiter) : (s.setQueue q).pending = s.pending := rfl
@[simp] theorem setQueue_at_port (s : State) (q : List Waiter) (i : Port) : (s.setQueue q).port i = s.port i := rfl
@[simp] theorem setQueue_at_elem (s : State) (q : List Waiter) (i : ElemId) : (s.setQueue q).elem i = s.elem i := rfl
@[simp] theorem setQueue_at_auth (s : State) (q : List Waiter) (i : Port) : (s.setQueue q).auth i = s.auth i := rfl
@[simp] theorem setQueue_at_unit (s : State) (q : List Waiter) (i : UnitId) : (s.setQueue q).unit i = s.unit i := rfl
@[simp] theorem setQueue_at_zone (s : State) (q : List Waiter) (i : ZoneId) : (s.setQueue q).zone i = s.zone i := rfl
@[simp] theorem setQueue_at_node (s : State) (q : List Waiter) (i : NodeId) : (s.setQueue q).node i = s.node i := rfl
@[simp] theorem setQueue_at_role (s : State) (q : List Waiter) (i : Port) : (s.setQueue q).role i = s.role i := rfl
@[simp] theorem setQueue_at_elemCfg (s : State) (q : List Waiter) (i : ElemId) : (s.setQueue q).elemCfg i = s.elemCfg i := rfl
@[simp] theorem setQueue_at_zoneCfg (s : State) (q : List Waiter) (i : ZoneId) : (s.setQueue q).zoneCfg i = s.zoneCfg i := rfl
@[simp] theorem setQueue_at_unitCfg (s : State) (q : List Waiter) (i : UnitId) : (s.setQueue q).unitCfg i = s.unitCfg i := rfl
@[simp] theorem setAlarmed_time (s : State) (z : ZoneSet) : (s.setAlarmed z).time = s.time := rfl
@[simp] theorem setAlarmed_cfg (s : State) (z : ZoneSet) : (s.setAlarmed z).cfg = s.cfg := rfl
@[simp] theorem setAlarmed_ports (s : State) (z : ZoneSet) : (s.setAlarmed z).ports = s.ports := rfl
@[simp] theorem setAlarmed_etu_elems (s : State) (z : ZoneSet) : (s.setAlarmed z).etu.elems = s.etu.elems := rfl
@[simp] theorem setAlarmed_etu_auth (s : State) (z : ZoneSet) : (s.setAlarmed z).etu.auth = s.etu.auth := rfl
@[simp] theorem setAlarmed_etu_reports (s : State) (z : ZoneSet) : (s.setAlarmed z).etu.reports = s.etu.reports := rfl
@[simp] theorem setAlarmed_dpm (s : State) (z : ZoneSet) : (s.setAlarmed z).dpm = s.dpm := rfl
@[simp] theorem setAlarmed_dpm_units (s : State) (z : ZoneSet) : (s.setAlarmed z).dpm.units = s.dpm.units := rfl
@[simp] theorem setAlarmed_dpm_queue (s : State) (z : ZoneSet) : (s.setAlarmed z).dpm.queue = s.dpm.queue := rfl
@[simp] theorem setAlarmed_zones (s : State) (z : ZoneSet) : (s.setAlarmed z).zones = s.zones := rfl
@[simp] theorem setAlarmed_csc (s : State) (z : ZoneSet) : (s.setAlarmed z).csc = s.csc := rfl
@[simp] theorem setAlarmed_rpu (s : State) (z : ZoneSet) : (s.setAlarmed z).rpu = s.rpu := rfl
@[simp] theorem setAlarmed_rpu_masks (s : State) (z : ZoneSet) : (s.setAlarmed z).rpu.masks = s.rpu.masks := rfl
@[simp] theorem setAlarmed_rpu_events (s : State) (z : ZoneSet) : (s.setAlarmed z).rpu.events = s.rpu.events := rfl
@[simp] theorem setAlarmed_flc (s : State) (z : ZoneSet) : (s.setAlarmed z).flc = s.flc := rfl
@[simp] theorem setAlarmed_flc_nodes (s : State) (z : ZoneSet) : (s.setAlarmed z).flc.nodes = s.flc.nodes := rfl
@[simp] theorem setAlarmed_flc_exchange (s : State) (z : ZoneSet) : (s.setAlarmed z).flc.exchange = s.flc.exchange := rfl
@[simp] theorem setAlarmed_flc_served (s : State) (z : ZoneSet) : (s.setAlarmed z).flc.served = s.flc.served := rfl
@[simp] theorem setAlarmed_flc_driving (s : State) (z : ZoneSet) : (s.setAlarmed z).flc.driving = s.flc.driving := rfl
@[simp] theorem setAlarmed_flc_ftxd (s : State) (z : ZoneSet) : (s.setAlarmed z).flc.ftxd = s.flc.ftxd := rfl
@[simp] theorem setAlarmed_pending (s : State) (z : ZoneSet) : (s.setAlarmed z).pending = s.pending := rfl
@[simp] theorem setAlarmed_at_port (s : State) (z : ZoneSet) (i : Port) : (s.setAlarmed z).port i = s.port i := rfl
@[simp] theorem setAlarmed_at_elem (s : State) (z : ZoneSet) (i : ElemId) : (s.setAlarmed z).elem i = s.elem i := rfl
@[simp] theorem setAlarmed_at_auth (s : State) (z : ZoneSet) (i : Port) : (s.setAlarmed z).auth i = s.auth i := rfl
@[simp] theorem setAlarmed_at_unit (s : State) (z : ZoneSet) (i : UnitId) : (s.setAlarmed z).unit i = s.unit i := rfl
@[simp] theorem setAlarmed_at_zone (s : State) (z : ZoneSet) (i : ZoneId) : (s.setAlarmed z).zone i = s.zone i := rfl
@[simp] theorem setAlarmed_at_node (s : State) (z : ZoneSet) (i : NodeId) : (s.setAlarmed z).node i = s.node i := rfl
@[simp] theorem setAlarmed_at_role (s : State) (z : ZoneSet) (i : Port) : (s.setAlarmed z).role i = s.role i := rfl
@[simp] theorem setAlarmed_at_elemCfg (s : State) (z : ZoneSet) (i : ElemId) : (s.setAlarmed z).elemCfg i = s.elemCfg i := rfl
@[simp] theorem setAlarmed_at_zoneCfg (s : State) (z : ZoneSet) (i : ZoneId) : (s.setAlarmed z).zoneCfg i = s.zoneCfg i := rfl
@[simp] theorem setAlarmed_at_unitCfg (s : State) (z : ZoneSet) (i : UnitId) : (s.setAlarmed z).unitCfg i = s.unitCfg i := rfl
@[simp] theorem mapElems_time (s : State) (f : ElemRun → ElemRun) : (s.mapElems f).time = s.time := by unfold State.mapElems; rfl
@[simp] theorem mapElems_cfg (s : State) (f : ElemRun → ElemRun) : (s.mapElems f).cfg = s.cfg := by unfold State.mapElems; rfl
@[simp] theorem mapElems_ports (s : State) (f : ElemRun → ElemRun) : (s.mapElems f).ports = s.ports := by unfold State.mapElems; rfl
@[simp] theorem mapElems_etu_auth (s : State) (f : ElemRun → ElemRun) : (s.mapElems f).etu.auth = s.etu.auth := by unfold State.mapElems; rfl
@[simp] theorem mapElems_etu_alarmed (s : State) (f : ElemRun → ElemRun) : (s.mapElems f).etu.alarmed = s.etu.alarmed := by unfold State.mapElems; rfl
@[simp] theorem mapElems_etu_reports (s : State) (f : ElemRun → ElemRun) : (s.mapElems f).etu.reports = s.etu.reports := by unfold State.mapElems; rfl
@[simp] theorem mapElems_dpm (s : State) (f : ElemRun → ElemRun) : (s.mapElems f).dpm = s.dpm := by unfold State.mapElems; rfl
@[simp] theorem mapElems_dpm_units (s : State) (f : ElemRun → ElemRun) : (s.mapElems f).dpm.units = s.dpm.units := by unfold State.mapElems; rfl
@[simp] theorem mapElems_dpm_queue (s : State) (f : ElemRun → ElemRun) : (s.mapElems f).dpm.queue = s.dpm.queue := by unfold State.mapElems; rfl
@[simp] theorem mapElems_zones (s : State) (f : ElemRun → ElemRun) : (s.mapElems f).zones = s.zones := by unfold State.mapElems; rfl
@[simp] theorem mapElems_csc (s : State) (f : ElemRun → ElemRun) : (s.mapElems f).csc = s.csc := by unfold State.mapElems; rfl
@[simp] theorem mapElems_rpu (s : State) (f : ElemRun → ElemRun) : (s.mapElems f).rpu = s.rpu := by unfold State.mapElems; rfl
@[simp] theorem mapElems_rpu_masks (s : State) (f : ElemRun → ElemRun) : (s.mapElems f).rpu.masks = s.rpu.masks := by unfold State.mapElems; rfl
@[simp] theorem mapElems_rpu_events (s : State) (f : ElemRun → ElemRun) : (s.mapElems f).rpu.events = s.rpu.events := by unfold State.mapElems; rfl
@[simp] theorem mapElems_flc (s : State) (f : ElemRun → ElemRun) : (s.mapElems f).flc = s.flc := by unfold State.mapElems; rfl
@[simp] theorem mapElems_flc_nodes (s : State) (f : ElemRun → ElemRun) : (s.mapElems f).flc.nodes = s.flc.nodes := by unfold State.mapElems; rfl
@[simp] theorem mapElems_flc_exchange (s : State) (f : ElemRun → ElemRun) : (s.mapElems f).flc.exchange = s.flc.exchange := by unfold State.mapElems; rfl
@[simp] theorem mapElems_flc_served (s : State) (f : ElemRun → ElemRun) : (s.mapElems f).flc.served = s.flc.served := by unfold State.mapElems; rfl
@[simp] theorem mapElems_flc_driving (s : State) (f : ElemRun → ElemRun) : (s.mapElems f).flc.driving = s.flc.driving := by unfold State.mapElems; rfl
@[simp] theorem mapElems_flc_ftxd (s : State) (f : ElemRun → ElemRun) : (s.mapElems f).flc.ftxd = s.flc.ftxd := by unfold State.mapElems; rfl
@[simp] theorem mapElems_pending (s : State) (f : ElemRun → ElemRun) : (s.mapElems f).pending = s.pending := by unfold State.mapElems; rfl
@[simp] theorem mapElems_at_port (s : State) (f : ElemRun → ElemRun) (i : Port) : (s.mapElems f).port i = s.port i := by
  simp only [State.port, mapElems_ports]
@[simp] theorem mapElems_at_auth (s : State) (f : ElemRun → ElemRun) (i : Port) : (s.mapElems f).auth i = s.auth i := by
  simp only [State.auth, mapElems_etu_auth]
@[simp] theorem mapElems_at_unit (s : State) (f : ElemRun → ElemRun) (i : UnitId) : (s.mapElems f).unit i = s.unit i := by
  simp only [State.unit, mapElems_dpm]
@[simp] theorem mapElems_at_zone (s : State) (f : ElemRun → ElemRun) (i : ZoneId) : (s.mapElems f).zone i = s.zone i := by
  simp only [State.zone, mapElems_zones]
@[simp] theorem mapElems_at_node (s : State) (f : ElemRun → ElemRun) (i : NodeId) : (s.mapElems f).node i = s.node i := by
  simp only [State.node, mapElems_flc]
@[simp] theorem mapElems_at_role (s : State) (f : ElemRun → ElemRun) (i : Port) : (s.mapElems f).role i = s.role i := by
  simp only [State.role, mapElems_at_port]
@[simp] theorem mapElems_at_elemCfg (s : State) (f : ElemRun → ElemRun) (i : ElemId) : (s.mapElems f).elemCfg i = s.elemCfg i := by
  simp only [State.elemCfg, mapElems_cfg]
@[simp] theorem mapElems_at_zoneCfg (s : State) (f : ElemRun → ElemRun) (i : ZoneId) : (s.mapElems f).zoneCfg i = s.zoneCfg i := by
  simp only [State.zoneCfg, mapElems_cfg]
@[simp] theorem mapElems_at_unitCfg (s : State) (f : ElemRun → ElemRun) (i : UnitId) : (s.mapElems f).unitCfg i = s.unitCfg i := by
  simp only [State.unitCfg, mapElems_cfg]
@[simp] theorem modOp_time (s : State) (e : ElemId) (f : OpRec → OpRec) : (s.modOp e f).time = s.time := rfl
@[simp] theorem modOp_cfg (s : State) (e : ElemId) (f : OpRec → OpRec) : (s.modOp e f).cfg = s.cfg := rfl
@[simp] theorem modOp_ports (s : State) (e : ElemId) (f : OpRec → OpRec) : (s.modOp e f).ports = s.ports := rfl
@[simp] theorem modOp_etu_auth (s : State) (e : ElemId) (f : OpRec → OpRec) : (s.modOp e f).etu.auth = s.etu.auth := rfl
@[simp] theorem modOp_etu_alarmed (s : State) (e : ElemId) (f : OpRec → OpRec) : (s.modOp e f).etu.alarmed = s.etu.alarmed := rfl
@[simp] theorem modOp_etu_reports (s : State) (e : ElemId) (f : OpRec → OpRec) : (s.modOp e f).etu.reports = s.etu.reports := rfl
@[simp] theorem modOp_dpm (s : State) (e : ElemId) (f : OpRec → OpRec) : (s.modOp e f).dpm = s.dpm := rfl
@[simp] theorem modOp_dpm_units (s : State) (e : ElemId) (f : OpRec → OpRec) : (s.modOp e f).dpm.units = s.dpm.units := rfl
@[simp] theorem modOp_dpm_queue (s : State) (e : ElemId) (f : OpRec → OpRec) : (s.modOp e f).dpm.queue = s.dpm.queue := rfl
@[simp] theorem modOp_zones (s : State) (e : ElemId) (f : OpRec → OpRec) : (s.modOp e f).zones = s.zones := rfl
@[simp] theorem modOp_csc (s : State) (e : ElemId) (f : OpRec → OpRec) : (s.modOp e f).csc = s.csc := rfl
@[simp] theorem modOp_rpu (s : State) (e : ElemId) (f : OpRec → OpRec) : (s.modOp e f).rpu = s.rpu := rfl
@[simp] theorem modOp_rpu_masks (s : State) (e : ElemId) (f : OpRec → OpRec) : (s.modOp e f).rpu.masks = s.rpu.masks := rfl
@[simp] theorem modOp_rpu_events (s : State) (e : ElemId) (f : OpRec → OpRec) : (s.modOp e f).rpu.events = s.rpu.events := rfl
@[simp] theorem modOp_flc (s : State) (e : ElemId) (f : OpRec → OpRec) : (s.modOp e f).flc = s.flc := rfl
@[simp] theorem modOp_flc_nodes (s : State) (e : ElemId) (f : OpRec → OpRec) : (s.modOp e f).flc.nodes = s.flc.nodes := rfl
@[simp] theorem modOp_flc_exchange (s : State) (e : ElemId) (f : OpRec → OpRec) : (s.modOp e f).flc.exchange = s.flc.exchange := rfl
@[simp] theorem modOp_flc_served (s : State) (e : ElemId) (f : OpRec → OpRec) : (s.modOp e f).flc.served = s.flc.served := rfl
@[simp] theorem modOp_flc_driving (s : State) (e : ElemId) (f : OpRec → OpRec) : (s.modOp e f).flc.driving = s.flc.driving := rfl
@[simp] theorem modOp_flc_ftxd (s : State) (e : ElemId) (f : OpRec → OpRec) : (s.modOp e f).flc.ftxd = s.flc.ftxd := rfl
@[simp] theorem modOp_pending (s : State) (e : ElemId) (f : OpRec → OpRec) : (s.modOp e f).pending = s.pending := rfl
@[simp] theorem modOp_at_port (s : State) (e : ElemId) (f : OpRec → OpRec) (i : Port) : (s.modOp e f).port i = s.port i := rfl
@[simp] theorem modOp_at_auth (s : State) (e : ElemId) (f : OpRec → OpRec) (i : Port) : (s.modOp e f).auth i = s.auth i := rfl
@[simp] theorem modOp_at_unit (s : State) (e : ElemId) (f : OpRec → OpRec) (i : UnitId) : (s.modOp e f).unit i = s.unit i := rfl
@[simp] theorem modOp_at_zone (s : State) (e : ElemId) (f : OpRec → OpRec) (i : ZoneId) : (s.modOp e f).zone i = s.zone i := rfl
@[simp] theorem modOp_at_node (s : State) (e : ElemId) (f : OpRec → OpRec) (i : NodeId) : (s.modOp e f).node i = s.node i := rfl
@[simp] theorem modOp_at_role (s : State) (e : ElemId) (f : OpRec → OpRec) (i : Port) : (s.modOp e f).role i = s.role i := rfl
@[simp] theorem modOp_at_elemCfg (s : State) (e : ElemId) (f : OpRec → OpRec) (i : ElemId) : (s.modOp e f).elemCfg i = s.elemCfg i := rfl
@[simp] theorem modOp_at_zoneCfg (s : State) (e : ElemId) (f : OpRec → OpRec) (i : ZoneId) : (s.modOp e f).zoneCfg i = s.zoneCfg i := rfl
@[simp] theorem modOp_at_unitCfg (s : State) (e : ElemId) (f : OpRec → OpRec) (i : UnitId) : (s.modOp e f).unitCfg i = s.unitCfg i := rfl
@[simp] theorem setMask_time (s : State) (p : Port) (m : ClassMask) : (s.setMask p m).time = s.time := rfl
@[simp] theorem setMask_cfg (s : State) (p : Port) (m : ClassMask) : (s.setMask p m).cfg = s.cfg := rfl
@[simp] theorem setMask_ports (s : State) (p : Port) (m : ClassMask) : (s.setMask p m).ports = s.ports := rfl
@[simp] theorem setMask_etu (s : State) (p : Port) (m : ClassMask) : (s.setMask p m).etu = s.etu := rfl
@[simp] theorem setMask_etu_elems (s : State) (p : Port) (m : ClassMask) : (s.setMask p m).etu.elems = s.etu.elems := rfl
@[simp] theorem setMask_etu_auth (s : State) (p : Port) (m : ClassMask) : (s.setMask p m).etu.auth = s.etu.auth := rfl
@[simp] theorem setMask_etu_alarmed (s : State) (p : Port) (m : ClassMask) : (s.setMask p m).etu.alarmed = s.etu.alarmed := rfl
@[simp] theorem setMask_etu_reports (s : State) (p : Port) (m : ClassMask) : (s.setMask p m).etu.reports = s.etu.reports := rfl
@[simp] theorem setMask_dpm (s : State) (p : Port) (m : ClassMask) : (s.setMask p m).dpm = s.dpm := rfl
@[simp] theorem setMask_dpm_units (s : State) (p : Port) (m : ClassMask) : (s.setMask p m).dpm.units = s.dpm.units := rfl
@[simp] theorem setMask_dpm_queue (s : State) (p : Port) (m : ClassMask) : (s.setMask p m).dpm.queue = s.dpm.queue := rfl
@[simp] theorem setMask_zones (s : State) (p : Port) (m : ClassMask) : (s.setMask p m).zones = s.zones := rfl
@[simp] theorem setMask_csc (s : State) (p : Port) (m : ClassMask) : (s.setMask p m).csc = s.csc := rfl
@[simp] theorem setMask_rpu_events (s : State) (p : Port) (m : ClassMask) : (s.setMask p m).rpu.events = s.rpu.events := rfl
@[simp] theorem setMask_flc (s : State) (p : Port) (m : ClassMask) : (s.setMask p m).flc = s.flc := rfl
@[simp] theorem setMask_flc_nodes (s : State) (p : Port) (m : ClassMask) : (s.setMask p m).flc.nodes = s.flc.nodes := rfl
@[simp] theorem setMask_flc_exchange (s : State) (p : Port) (m : ClassMask) : (s.setMask p m).flc.exchange = s.flc.exchange := rfl
@[simp] theorem setMask_flc_served (s : State) (p : Port) (m : ClassMask) : (s.setMask p m).flc.served = s.flc.served := rfl
@[simp] theorem setMask_flc_driving (s : State) (p : Port) (m : ClassMask) : (s.setMask p m).flc.driving = s.flc.driving := rfl
@[simp] theorem setMask_flc_ftxd (s : State) (p : Port) (m : ClassMask) : (s.setMask p m).flc.ftxd = s.flc.ftxd := rfl
@[simp] theorem setMask_pending (s : State) (p : Port) (m : ClassMask) : (s.setMask p m).pending = s.pending := rfl
@[simp] theorem setMask_at_port (s : State) (p : Port) (m : ClassMask) (i : Port) : (s.setMask p m).port i = s.port i := rfl
@[simp] theorem setMask_at_elem (s : State) (p : Port) (m : ClassMask) (i : ElemId) : (s.setMask p m).elem i = s.elem i := rfl
@[simp] theorem setMask_at_auth (s : State) (p : Port) (m : ClassMask) (i : Port) : (s.setMask p m).auth i = s.auth i := rfl
@[simp] theorem setMask_at_unit (s : State) (p : Port) (m : ClassMask) (i : UnitId) : (s.setMask p m).unit i = s.unit i := rfl
@[simp] theorem setMask_at_zone (s : State) (p : Port) (m : ClassMask) (i : ZoneId) : (s.setMask p m).zone i = s.zone i := rfl
@[simp] theorem setMask_at_node (s : State) (p : Port) (m : ClassMask) (i : NodeId) : (s.setMask p m).node i = s.node i := rfl
@[simp] theorem setMask_at_role (s : State) (p : Port) (m : ClassMask) (i : Port) : (s.setMask p m).role i = s.role i := rfl
@[simp] theorem setMask_at_elemCfg (s : State) (p : Port) (m : ClassMask) (i : ElemId) : (s.setMask p m).elemCfg i = s.elemCfg i := rfl
@[simp] theorem setMask_at_zoneCfg (s : State) (p : Port) (m : ClassMask) (i : ZoneId) : (s.setMask p m).zoneCfg i = s.zoneCfg i := rfl
@[simp] theorem setMask_at_unitCfg (s : State) (p : Port) (m : ClassMask) (i : UnitId) : (s.setMask p m).unitCfg i = s.unitCfg i := rfl

/-! ### What an update does at its place -/

@[simp] theorem upd_same {α : Type} {n : Nat} (v : Vector α n) (i : Fin n) (f : α → α) : (upd v i f)[i] = f v[i] := by
  simp [upd]

theorem upd_get {α : Type} {n : Nat} (v : Vector α n) (i j : Fin n) (f : α → α) :
    (upd v i f)[j] = if j = i then f v[j] else v[j] := by
  by_cases h : j = i
  · subst h; simp [upd]
  · have : i.val ≠ j.val := fun h' => h (Fin.ext h'.symm)
    simp [upd, this, h]

theorem upd_other {α : Type} {n : Nat} (v : Vector α n) {i j : Fin n} (f : α → α) (h : j ≠ i) : (upd v i f)[j] = v[j] := by
  rw [upd_get, if_neg h]

@[simp] theorem modPort_port (s : State) (p q : Port) (f : PortRec → PortRec) :
    (s.modPort p f).port q = if q = p then f (s.port q) else s.port q := upd_get _ _ _ _
@[simp] theorem modElem_elem (s : State) (e d : ElemId) (f : ElemRun → ElemRun) :
    (s.modElem e f).elem d = if d = e then f (s.elem d) else s.elem d := upd_get _ _ _ _
@[simp] theorem modAuth_auth (s : State) (p q : Port) (f : AuthRec → AuthRec) :
    (s.modAuth p f).auth q = if q = p then f (s.auth q) else s.auth q := upd_get _ _ _ _
@[simp] theorem modUnit_unit (s : State) (u v : UnitId) (f : UnitRun → UnitRun) :
    (s.modUnit u f).unit v = if v = u then f (s.unit v) else s.unit v := upd_get _ _ _ _
@[simp] theorem modZone_zone (s : State) (z y : ZoneId) (f : ZoneRun → ZoneRun) :
    (s.modZone z f).zone y = if y = z then f (s.zone y) else s.zone y := upd_get _ _ _ _
@[simp] theorem modNode_node (s : State) (n m : NodeId) (f : NodeRun → NodeRun) :
    (s.modNode n f).node m = if m = n then f (s.node m) else s.node m := upd_get _ _ _ _
@[simp] theorem modCsc_csc (s : State) (f : Csc → Csc) : (s.modCsc f).csc = f s.csc := rfl
@[simp] theorem modPa_csc (s : State) (f : PaPort → PaPort) : (s.modPa f).csc = { s.csc with pa := f s.csc.pa } := rfl
@[simp] theorem setQueue_queue (s : State) (q : List Waiter) : (s.setQueue q).dpm.queue = q := rfl
@[simp] theorem setAlarmed_alarmed (s : State) (z : ZoneSet) : (s.setAlarmed z).etu.alarmed = z := rfl
@[simp] theorem mapElems_elem (s : State) (f : ElemRun → ElemRun) (e : ElemId) : (s.mapElems f).elem e = f (s.elem e) := by
  simp [State.mapElems, State.elem]
@[simp] theorem modOp_elem (s : State) (e d : ElemId) (f : OpRec → OpRec) :
    (s.modOp e f).elem d = if d = e then { s.elem d with op := (s.elem d).op.map f } else s.elem d := upd_get _ _ _ _
@[simp] theorem setMask_masks (s : State) (p q : Port) (m : ClassMask) :
    (s.setMask p m).rpu.masks[q] = if q = p then m else s.rpu.masks[q] := upd_get _ _ _ _

theorem modPort_role (s : State) (p q : Port) (f : PortRec → PortRec) (h : ∀ r, (f r).role = r.role) :
    (s.modPort p f).role q = s.role q := by
  unfold State.role
  rw [modPort_port]
  split <;> simp [h]

end Sys2Proof.Machine
end

