-- ==== Sys2Proof/Laws/Ports.lean ====
section
/-!
SUPPORT. What an attention, an event and a reply do: the frame relations as preorders, the growth of a transmit FIFO
(R172, R175), the event queue's bound (R162, R164), and the answer of a request (R173).
-/

namespace Sys2Proof.Machine

/-! ### Growth of a transmit FIFO -/

/-- Only attentions have joined a port's transmit FIFO, within its capacity; all else but the owed flag is as it was. -/
structure PortGrew (r r' : PortRec) : Prop where
  kept  : PortKept r r'
  grows : ∃ rest, r'.tx = r.tx ++ rest ∧ ∀ x ∈ rest, ∃ c d, x = TxPlace.attention c d
  bound : r.tx.length ≤ txCapacity → r'.tx.length ≤ txCapacity

theorem PortKept.refl (r : PortRec) : PortKept r r := rfl

theorem PortKept.trans {a b c : PortRec} (h : PortKept a b) (k : PortKept b c) : PortKept a c := by
  unfold PortKept at *
  rw [k, h]

theorem PortKept.role {a b : PortRec} (h : PortKept a b) : b.role = a.role := by rw [h]
theorem PortKept.link {a b : PortRec} (h : PortKept a b) : b.link = a.link := by rw [h]
theorem PortKept.rx {a b : PortRec} (h : PortKept a b) : b.rx = a.rx := by rw [h]
theorem PortKept.sending {a b : PortRec} (h : PortKept a b) : b.sending = a.sending := by rw [h]

/-- A link character is acted on exactly at an UP port whose driver is off (R167, R172). -/
theorem PortRec.heeds_iff (r : PortRec) : r.heeds = true ↔ r.link = .up ∧ r.sending = false := by
  unfold PortRec.heeds PortRec.listens
  cases r.link <;> cases r.sending <;> decide

theorem PortGrew.refl (r : PortRec) : PortGrew r r :=
  ⟨PortKept.refl r, ⟨[], by simp, by simp⟩, id⟩

theorem PortGrew.trans {a b c : PortRec} (h : PortGrew a b) (k : PortGrew b c) : PortGrew a c := by
  obtain ⟨x, hx, ax⟩ := h.grows
  obtain ⟨y, hy, ay⟩ := k.grows
  refine ⟨h.kept.trans k.kept, ⟨x ++ y, by rw [hy, hx, List.append_assoc], ?_⟩, fun hb => k.bound (h.bound hb)⟩
  intro z hz
  rcases List.mem_append.1 hz with hz | hz
  · exact ax z hz
  · exact ay z hz

theorem attend_grew (code : Byte) (payload : List Byte) (r : PortRec) : PortGrew r (r.attend code payload) := by
  unfold PortRec.attend
  split
  · exact PortGrew.refl r
  · split
    · rename_i h
      have hl : r.tx.length + 1 ≤ txCapacity := by unfold PortRec.free at h; omega
      split
      · exact ⟨rfl, ⟨[.attention attnOwed []], rfl, by simp⟩, fun _ => by simpa using hl⟩
      · exact ⟨rfl, ⟨[.attention code payload], rfl, by simp⟩, fun _ => by simpa using hl⟩
    · exact ⟨rfl, ⟨[], by simp, by simp⟩, id⟩

/-! ### Events and attentions -/

/-- What raising events and handing on attentions does, with the growth of every transmit FIFO. -/
structure Reported (s t : State) : Prop extends OnlyReported s t where
  grew : ∀ p, PortGrew (s.port p) (t.port p)
  events : s.rpu.events.length ≤ eventCapacity → t.rpu.events.length ≤ eventCapacity

theorem OnlyReported.refl (s : State) : OnlyReported s s :=
  ⟨rfl, rfl, fun _ => PortKept.refl _, rfl, rfl, rfl, rfl, rfl, rfl, rfl⟩

theorem OnlyReported.trans {a b c : State} (h : OnlyReported a b) (k : OnlyReported b c) : OnlyReported a c :=
  ⟨k.time.trans h.time, k.cfg.trans h.cfg, fun p => (h.ports p).trans (k.ports p), k.etu.trans h.etu,
    k.dpm.trans h.dpm, k.zones.trans h.zones, k.csc.trans h.csc, k.masks.trans h.masks, k.flc.trans h.flc,
    k.pending.trans h.pending⟩

theorem Reported.refl (s : State) : Reported s s := ⟨OnlyReported.refl s, fun _ => PortGrew.refl _, id⟩

theorem Reported.trans {a b c : State} (h : Reported a b) (k : Reported b c) : Reported a c :=
  ⟨h.toOnlyReported.trans k.toOnlyReported, fun p => (h.grew p).trans (k.grew p), fun hb => k.events (h.events hb)⟩

theorem foldl_reported {α : Type} (f : State → α → State) (hf : ∀ s a, Reported s (f s a)) (l : List α) (s : State) :
    Reported s (l.foldl f s) := by
  induction l generalizing s with
  | nil => exact Reported.refl s
  | cons a l ih => exact (hf s a).trans (ih _)

theorem modPort_attend_reported (s : State) (p : Port) (code : Byte) (payload : List Byte) :
    Reported s (s.modPort p (PortRec.attend code payload)) := by
  have h : ∀ q, PortGrew (s.port q) ((s.modPort p (PortRec.attend code payload)).port q) := by
    intro q
    rw [modPort_port]
    split
    · exact attend_grew _ _ _
    · exact PortGrew.refl _
  exact ⟨⟨rfl, rfl, fun q => (h q).kept, rfl, rfl, rfl, rfl, rfl, rfl, rfl⟩, h, id⟩

/-- An attention changes nothing but transmit FIFOs and owed flags (R175). -/
theorem attend_reported (s : State) (admits : Port → Bool) (code : Byte) (payload : List Byte) :
    Reported s (s.attend admits code payload) := by
  refine foldl_reported _ (fun s p => ?_) _ s
  split
  · exact modPort_attend_reported s p code payload
  · exact Reported.refl s

theorem attend_events (s : State) (admits : Port → Bool) (code : Byte) (payload : List Byte) :
    (s.attend admits code payload).rpu = s.rpu := by
  have : ∀ (l : List Port) (s : State),
      (l.foldl (fun s p => if admits p then s.modPort p (PortRec.attend code payload) else s) s).rpu = s.rpu := by
    intro l
    induction l with
    | nil => intro s; rfl
    | cons p l ih => intro s; rw [List.foldl_cons, ih]; split <;> rfl
  exact this _ s

theorem flagYoungest_length (l : List EventEntry) : (flagYoungest l).length = l.length := by
  induction l with
  | nil => rfl
  | cons e l ih =>
    cases l with
    | nil => rfl
    | cons d l => simp only [flagYoungest, List.length_cons] at ih ⊢; omega

/-- An event joins or is discarded, and attentions go out: nothing else changes (R164). -/
theorem raise_reported (s : State) (k : EventKind) (source : Byte) (detail : Word16) :
    Reported s (s.raise k source detail) := by
  unfold State.raise
  split
  · rename_i h
    refine Reported.trans ?_ (attend_reported _ _ _ _)
    exact ⟨⟨rfl, rfl, fun _ => PortKept.refl _, rfl, rfl, rfl, rfl, rfl, rfl, rfl⟩, fun _ => PortGrew.refl _,
      fun _ => by simpa using h⟩
  · exact ⟨⟨rfl, rfl, fun _ => PortKept.refl _, rfl, rfl, rfl, rfl, rfl, rfl, rfl⟩, fun _ => PortGrew.refl _,
      fun hb => by simpa [flagYoungest_length] using hb⟩

/-- The event queue after an event: it joins at the tail, or the youngest entry is flagged (R164). -/
theorem raise_events (s : State) (k : EventKind) (source : Byte) (detail : Word16) :
    (s.raise k source detail).rpu.events =
      if s.rpu.events.length < eventCapacity then
        s.rpu.events ++ [{ kind := k, source := source, detail := detail, time := s.time, overflow := false }]
      else flagYoungest s.rpu.events := by
  unfold State.raise
  split
  · rw [attend_events]
  · rfl

theorem upAttention_reported (m : ClassMask) (p : Port) (s : State) : Reported s (upAttention m p s) := by
  unfold upAttention
  split
  · exact modPort_attend_reported _ _ _ _
  · exact Reported.refl s

theorem upAttention_rpu (m : ClassMask) (p : Port) (s : State) : (upAttention m p s).rpu = s.rpu := by
  unfold upAttention
  split <;> rfl

/-! ### What a report leaves at each record -/

section
variable {s t : State}

theorem OnlyReported.elem (h : OnlyReported s t) (e : ElemId) : t.elem e = s.elem e := by
  unfold State.elem; rw [h.etu]
theorem OnlyReported.auth (h : OnlyReported s t) (p : Port) : t.auth p = s.auth p := by
  unfold State.auth; rw [h.etu]
theorem OnlyReported.unit (h : OnlyReported s t) (u : UnitId) : t.unit u = s.unit u := by
  unfold State.unit; rw [h.dpm]
theorem OnlyReported.zone (h : OnlyReported s t) (z : ZoneId) : t.zone z = s.zone z := by
  unfold State.zone; rw [h.zones]
theorem OnlyReported.node (h : OnlyReported s t) (n : NodeId) : t.node n = s.node n := by
  unfold State.node; rw [h.flc]
theorem OnlyReported.role (h : OnlyReported s t) (p : Port) : t.role p = s.role p := (h.ports p).role
theorem OnlyReported.elemCfg (h : OnlyReported s t) (e : ElemId) : t.elemCfg e = s.elemCfg e := by
  unfold State.elemCfg; rw [h.cfg]
theorem OnlyReported.zoneCfg (h : OnlyReported s t) (z : ZoneId) : t.zoneCfg z = s.zoneCfg z := by
  unfold State.zoneCfg; rw [h.cfg]
theorem OnlyReported.unitCfg (h : OnlyReported s t) (u : UnitId) : t.unitCfg u = s.unitCfg u := by
  unfold State.unitCfg; rw [h.cfg]
end

/-! ### The end of an event -/

theorem notice_reported (s0 s : State) (e : ElemId) : Reported s (notice s0 s e) := by
  unfold notice
  dsimp only
  split
  · split
    · split
      · exact Reported.refl s
      · exact attend_reported _ _ _ _
    · exact attend_reported _ _ _ _
  · exact Reported.refl s

/-- The state with the report list as an event leaves it. -/
def relisted (s0 s : State) : State := { s with etu := { s.etu with reports := joinReports s0 s } }

/-- The end of an event rewrites the report list and hands on attentions (R152, R154, R160). -/
theorem finishReports_reported (s0 s : State) : Reported (relisted s0 s) (finishReports s0 s) :=
  foldl_reported _ (notice_reported s0) _ _

theorem notice_rpu (s0 s : State) (e : ElemId) : (notice s0 s e).rpu = s.rpu := by
  unfold notice
  dsimp only
  split
  · split
    · split
      · rfl
      · exact attend_events _ _ _ _
    · exact attend_events _ _ _ _
  · rfl

theorem finishReports_rpu (s0 s : State) : (finishReports s0 s).rpu = s.rpu := by
  have : ∀ (l : List ElemId) (t : State), (l.foldl (notice s0) t).rpu = t.rpu := by
    intro l
    induction l with
    | nil => intro t; rfl
    | cons e l ih => intro t; rw [List.foldl_cons, ih, notice_rpu]
  exact this _ _

theorem notice_of_same {s0 s : State} {e : ElemId} (h : (s.elem e).listed = true → (s0.elem e).listed = true)
    (hc : (s.elem e).listed = true → (s0.elem e).reportClass = (s.elem e).reportClass) : notice s0 s e = s := by
  unfold notice
  by_cases hl : (s.elem e).listed = true
  · simp [hl, h hl, hc hl]
  · simp [hl]

/-- Where no element becomes listed or changes class, no attention goes out (R154, R160). -/
theorem finishReports_of_quiet {s0 s : State}
    (h : ∀ e, (s.elem e).listed = true →
      (s0.elem e).listed = true ∧ (s0.elem e).reportClass = (s.elem e).reportClass) :
    finishReports s0 s = relisted s0 s := by
  have key : ∀ l : List ElemId, l.foldl (notice s0) (relisted s0 s) = relisted s0 s := by
    intro l
    induction l with
    | nil => rfl
    | cons e l ih =>
      have hn : notice s0 (relisted s0 s) e = relisted s0 s :=
        notice_of_same (s := relisted s0 s) (fun hl => (h e hl).1) (fun hl => (h e hl).2)
      rw [List.foldl_cons, hn]
      exact ih
  exact key _

/-- Where no pending set and no listed element's class changes, the end of an event changes nothing (R152). -/
theorem finishReports_of_same {s0 s : State} (h : ∀ e, (s.elem e).listed = (s0.elem e).listed)
    (hc : ∀ e, (s.elem e).listed = true → (s.elem e).reportClass = (s0.elem e).reportClass) :
    finishReports s0 s = s := by
  rw [finishReports_of_quiet fun e hl => ⟨by rw [← h e]; exact hl, (hc e hl).symm⟩]
  have : joinReports s0 s = s.etu.reports := by
    have h1 : s.etu.reports.filter (fun e => (s.elem e).listed || !(s0.elem e).listed) = s.etu.reports :=
      List.filter_eq_self.2 fun e _ => by rw [h e]; cases (s0.elem e).listed <;> rfl
    have h2 : (List.finRange 32).filter (fun e => (s.elem e).listed && !(s0.elem e).listed) = [] :=
      List.filter_eq_nil_iff.2 fun e _ => by rw [h e]; cases (s0.elem e).listed <;> simp
    unfold joinReports
    rw [h1, h2, List.append_nil]
  unfold relisted
  rw [this]

/-- The report list after an event holds exactly the elements with something pending, each once (R152). -/
theorem finishReports_listed {s0 s : State} (h : ReportsListed s0) (hr : s.etu.reports = s0.etu.reports) :
    ReportsListed (finishReports s0 s) := by
  have hf := finishReports_reported s0 s
  have hl : (finishReports s0 s).etu.reports = joinReports s0 s := by rw [hf.etu]; rfl
  have he : ∀ e, (finishReports s0 s).elem e = s.elem e := fun e => (hf.elem e).trans rfl
  obtain ⟨nd, mem⟩ := h
  constructor
  · rw [hl]
    unfold joinReports
    rw [hr]
    refine List.Nodup.append (nd.filter _) ((List.nodup_finRange 32).filter _) ?_
    intro e h1 h2
    have m := (mem e).1 (List.mem_filter.1 h1).1
    have := (List.mem_filter.1 h2).2
    simp [m] at this
  · intro e
    rw [hl, he]
    unfold joinReports
    rw [hr, List.mem_append, List.mem_filter, List.mem_filter, mem]
    simp only [List.mem_finRange, true_and]
    cases (s.elem e).listed <;> cases (s0.elem e).listed <;> simp

end Sys2Proof.Machine
end

