-- ==== Sys2Proof/Laws/Calls.lean ====
section
/-!
SUPPORT. What the operations of the Call Scheduler do (Machine/Calls.lean): they change its own records, events and
attentions, and nothing else, and keep the queue and the stack within their capacities (R121).
-/

namespace Sys2Proof.Machine

/-! ### The frame relations -/

/-- The Call Scheduler's queue and stack within their capacities stay so, and the muted set stands. -/
structure CscKept (c c' : Csc) : Prop where
  queue : c.queue.length ≤ callCapacity → c'.queue.length ≤ callCapacity
  stack : c.stack.length ≤ stackCapacity → c'.stack.length ≤ stackCapacity
  muted : c'.muted = c.muted

/-- The work of the Call Scheduler within one event, but for a change of the muted set. -/
structure Called (s t : State) : Prop extends OnlyCalls s t where
  grew   : ∀ p, PortGrew (s.port p) (t.port p)
  events : s.rpu.events.length ≤ eventCapacity → t.rpu.events.length ≤ eventCapacity
  kept   : CscKept s.csc t.csc

theorem CscKept.refl (c : Csc) : CscKept c c := ⟨id, id, rfl⟩
theorem CscKept.trans {a b c : Csc} (h : CscKept a b) (k : CscKept b c) : CscKept a c :=
  ⟨fun x => k.queue (h.queue x), fun x => k.stack (h.stack x), k.muted.trans h.muted⟩

theorem OnlyCalls.refl (s : State) : OnlyCalls s s :=
  ⟨rfl, rfl, fun _ => PortKept.refl _, rfl, rfl, rfl, rfl, rfl, rfl⟩

theorem OnlyCalls.trans {a b c : State} (h : OnlyCalls a b) (k : OnlyCalls b c) : OnlyCalls a c :=
  ⟨k.time.trans h.time, k.cfg.trans h.cfg, fun p => (h.ports p).trans (k.ports p), k.etu.trans h.etu,
    k.dpm.trans h.dpm, k.zones.trans h.zones, k.masks.trans h.masks, k.flc.trans h.flc, k.pending.trans h.pending⟩

theorem Called.refl (s : State) : Called s s := ⟨OnlyCalls.refl s, fun _ => PortGrew.refl _, id, CscKept.refl _⟩

theorem Called.trans {a b c : State} (h : Called a b) (k : Called b c) : Called a c :=
  ⟨h.toOnlyCalls.trans k.toOnlyCalls, fun p => (h.grew p).trans (k.grew p), fun x => k.events (h.events x),
    h.kept.trans k.kept⟩

theorem foldl_called {α : Type} (f : State → α → State) (hf : ∀ s a, Called s (f s a)) (l : List α) (s : State) :
    Called s (l.foldl f s) := by
  induction l generalizing s with
  | nil => exact Called.refl s
  | cons a l ih => exact (hf s a).trans (ih _)

section
variable {s t : State}

theorem OnlyReported.toOnlyCalls (h : OnlyReported s t) : OnlyCalls s t :=
  ⟨h.time, h.cfg, h.ports, h.etu, h.dpm, h.zones, h.masks, h.flc, h.pending⟩

theorem Reported.toCalled (h : Reported s t) : Called s t :=
  ⟨h.toOnlyReported.toOnlyCalls, h.grew, h.events, by rw [h.csc]; exact CscKept.refl _⟩

theorem OnlyCalls.elem (h : OnlyCalls s t) (e : ElemId) : t.elem e = s.elem e := by
  unfold State.elem; rw [h.etu]
theorem OnlyCalls.unit (h : OnlyCalls s t) (u : UnitId) : t.unit u = s.unit u := by
  unfold State.unit; rw [h.dpm]
theorem OnlyCalls.auth (h : OnlyCalls s t) (p : Port) : t.auth p = s.auth p := by
  unfold State.auth; rw [h.etu]
theorem OnlyCalls.zone (h : OnlyCalls s t) (z : ZoneId) : t.zone z = s.zone z := by
  unfold State.zone; rw [h.zones]
theorem OnlyCalls.node (h : OnlyCalls s t) (n : NodeId) : t.node n = s.node n := by
  unfold State.node; rw [h.flc]
end

theorem modCsc_onlyCalls (s : State) (f : Csc → Csc) : OnlyCalls s (s.modCsc f) :=
  ⟨rfl, rfl, fun _ => PortKept.refl _, rfl, rfl, rfl, rfl, rfl, rfl⟩

theorem modCsc_called (s : State) (f : Csc → Csc) (h : CscKept s.csc (f s.csc)) : Called s (s.modCsc f) :=
  ⟨modCsc_onlyCalls s f, fun _ => PortGrew.refl _, id, h⟩

theorem callLost_called (why : LostReason) (id cue : Byte) (s : State) : Called s (callLost why id cue s) :=
  (raise_reported s _ _ _).toCalled

/-! ### Within the Call Scheduler's record -/

theorem stopPlay_kept (c : Csc) : CscKept c c.stopPlay := by
  unfold Csc.stopPlay
  split <;> exact ⟨id, id, rfl⟩

theorem preempt_kept (level : Nat) (c : Csc) : CscKept c (c.preempt level) := by
  unfold Csc.preempt
  split
  · split
    · exact stopPlay_kept c
    · exact CscKept.refl c
  · exact CscKept.refl c

theorem mapEntries_kept (f : CallEntry → CallEntry) (c : Csc) : CscKept c (c.mapEntries f) :=
  ⟨by simp [Csc.mapEntries], by simp [Csc.mapEntries], rfl⟩

theorem startPlay_kept (e : CallEntry) (c : Csc) : CscKept c (c.startPlay e) :=
  ⟨fun h => (List.length_filter_le _ _).trans h, fun h => (List.length_filter_le _ _).trans h, rfl⟩

theorem remove_kept (f : CallEntry → Bool) (c : Csc) : CscKept c (c.remove f) := by
  unfold Csc.remove
  dsimp only
  have h : CscKept c { c with
      queue := c.queue.filter fun e => !f e
      stack := c.stack.filter fun e => !f e } :=
    ⟨fun h => (List.length_filter_le _ _).trans h, fun h => (List.length_filter_le _ _).trans h, rfl⟩
  split
  · refine h.trans (CscKept.trans (b := { c with
        queue := c.queue.filter fun e => !f e
        stack := c.stack.filter fun e => !f e
        slot := c.slot.map fun p : Play => { p with entry := none } }) ⟨id, id, rfl⟩ (stopPlay_kept _))
  · exact h

theorem renumber_queue (c : Csc) : c.renumber.queue.length = c.queue.length := by
  unfold Csc.renumber
  split
  · simp [Csc.mapEntries]
  · rfl

theorem renumber_stack (c : Csc) : c.renumber.stack.length = c.stack.length := by
  unfold Csc.renumber
  split
  · simp [Csc.mapEntries]
  · rfl

theorem renumber_muted (c : Csc) : c.renumber.muted = c.muted := by
  unfold Csc.renumber
  split <;> rfl

theorem addEntry_kept (now : Word32) (n : NewCall) (c : Csc) (h : c.queue.length < callCapacity) :
    CscKept c (c.addEntry now n) := by
  have h1 : CscKept c
      { c.renumber with
        queue := c.renumber.queue ++ [n.entry now c.freeId (c.renumber.acceptCount + 1)]
        nextId := idAfter c.freeId
        acceptCount := c.renumber.acceptCount + 1 } := by
    refine ⟨fun _ => ?_, fun x => ?_, renumber_muted c⟩
    · simp only [List.length_append, List.length_singleton, renumber_queue]; omega
    · simpa only [renumber_stack] using x
  unfold Csc.addEntry
  dsimp only
  split
  · exact h1.trans (preempt_kept _ _)
  · exact h1

/-! ### The scheduler's operations -/

theorem select_called (s : State) : Called s (select s) := by
  unfold select
  split
  · split
    · exact modCsc_called s _ (startPlay_kept _ _)
    · exact Called.refl s
  · exact Called.refl s

theorem accept_called (n : NewCall) (s : State) : Called s (accept n s).1 := by
  unfold accept
  split
  · exact modCsc_called s _ (mapEntries_kept _ _)
  · split
    · rename_i h
      exact modCsc_called s _ (addEntry_kept _ _ _ h)
    · exact Called.refl s

theorem internalCall_called (n : NewCall) (s : State) : Called s (internalCall n s) := by
  have h := accept_called n s
  unfold internalCall
  split
  · rename_i t ht; rw [ht] at h; exact h.trans (callLost_called _ _ _ _)
  · rename_i t a _ ht; rw [ht] at h; exact h

theorem insertEntry_length (e : CallEntry) (l : List CallEntry) : (insertEntry e l).length = l.length + 1 := by
  induction l with
  | nil => rfl
  | cons x l ih =>
    unfold insertEntry
    split
    · rfl
    · simp [ih]

theorem returnEntry_called (e : CallEntry) (s : State) : Called s (returnEntry e s) := by
  unfold returnEntry
  split
  · rename_i h
    refine modCsc_called s _ ⟨fun _ => ?_, id, rfl⟩
    simp only [insertEntry_length]
    omega
  · exact callLost_called _ _ _ _

theorem completeEntry_called (e : CallEntry) (s : State) : Called s (completeEntry e s) := by
  unfold completeEntry
  split
  · exact Called.refl s
  · split
    · exact Called.refl s
    · dsimp only
      split <;> exact returnEntry_called _ _

theorem pushEntry_called (e : CallEntry) (s : State) : Called s (pushEntry e s) := by
  unfold pushEntry
  split
  · exact Called.refl s
  · dsimp only
    split
    · rename_i h
      exact modCsc_called s _ ⟨id, fun _ => by simpa using h, rfl⟩
    · rename_i h
      split
      · rename_i b hb
        have hl := raise_reported (s.modCsc fun c => { c with stack := c.stack.dropLast }) .callLost b.id
          (LostReason.stack.detail b.cue)
        refine ⟨((modCsc_onlyCalls s _).trans hl.toOnlyCalls).trans (modCsc_onlyCalls _ _), hl.grew, hl.events, ?_⟩
        have hc : (callLost .stack b.id b.cue (s.modCsc fun c => { c with stack := c.stack.dropLast })).csc =
            { s.csc with stack := s.csc.stack.dropLast } := hl.csc
        rw [modCsc_csc, hc]
        refine ⟨id, fun x => ?_, rfl⟩
        simp only [List.length_cons, List.length_dropLast]
        unfold stackCapacity at *
        omega
      · rename_i hn
        have : s.csc.stack = [] := List.getLast?_eq_none_iff.1 hn
        simp [this, stackCapacity] at h

theorem withPlayEntry_called (f : CallEntry → State → State) (hf : ∀ e s, Called s (f e s)) (before s : State) :
    Called s (withPlayEntry f before s) := by
  unfold withPlayEntry
  split
  · exact hf _ s
  · exact Called.refl s

theorem emptySlot_kept (st : PaState) (c : Csc) : CscKept c (c.emptySlot st) := ⟨id, id, rfl⟩

theorem paFault_called (cause : PaCause) (s : State) : Called s (paFault cause s) := by
  unfold paFault
  dsimp only
  refine Called.trans (Called.trans (modCsc_called s _ (emptySlot_kept _ _)) (withPlayEntry_called _ ?_ _ _))
    (raise_reported _ _ _ _).toCalled
  intro e s
  split
  · exact Called.refl s
  · exact returnEntry_called _ s

theorem alarmCall_called (z : ZoneId) (s : State) : Called s (alarmCall z s) := by
  unfold alarmCall
  split
  · exact Called.refl s
  · split
    · exact Called.refl s
    · exact internalCall_called _ s

theorem fireBinding_called (b : BindingCfg) (s : State) : Called s (fireBinding b s) := by
  unfold fireBinding
  split
  · exact Called.refl s
  · split
    · exact Called.refl s
    · exact internalCall_called _ s

/-- A position-entry notice (R141, R145). -/
theorem positionEntry_called (e : ElemId) (left entered : Position) (s : State) :
    Called s (positionEntry e left entered s) := by
  unfold positionEntry
  exact ((modCsc_called s _ (remove_kept _ _)).trans (foldl_called _ (fun s b => fireBinding_called b s) _ _)).trans
    (select_called _)

theorem unmute_queue (z : ZoneId) (c : Csc) :
    (c.unmute z).muted = c.muted &&& ~~~zoneBit z ∧
      (c.queue.length ≤ callCapacity → (c.unmute z).queue.length ≤ callCapacity) ∧
      (c.stack.length ≤ stackCapacity → (c.unmute z).stack.length ≤ stackCapacity) := by
  unfold Csc.unmute
  dsimp only
  split
  · exact ⟨rfl, id, id⟩
  · rename_i e es _
    have h := preempt_kept (es.foldl moreUrgent e).level { c with muted := c.muted &&& ~~~zoneBit z }
    exact ⟨h.muted, h.queue, h.stack⟩

/-- The alarm of a zone at the Call Scheduler: the zone is muted, and the rest is calls (R105, R106). -/
theorem cscAlarm_called (z : ZoneId) (s : State) :
    Called (s.modCsc fun c => { c with muted := c.muted ||| zoneBit z }) (cscAlarm z s) :=
  (alarmCall_called z _).trans (select_called _)

/-- The return of a zone to NORMAL at the Call Scheduler: the zone is unmuted, and the rest is calls (R102, R107). -/
theorem cscNormal_called (z : ZoneId) (alarmed : List ZoneId) (s : State) :
    Called ((s.modCsc (Csc.remove fun e => e.cancel = .zoneNormal z)).modCsc (Csc.unmute z)) (cscNormal z alarmed s) :=
  (foldl_called _ (fun s z => alarmCall_called z s) _ _).trans (select_called _)

/-! ### The PA port -/

theorem busyRises_kept (c : Csc) : CscKept c c.busyRises := by
  unfold Csc.busyRises
  split
  · split <;> exact ⟨id, id, rfl⟩
  · exact CscKept.refl c

theorem busyFalls_called (s : State) : Called s (busyFalls s) := by
  unfold busyFalls
  split
  · exact (modCsc_called s _ (emptySlot_kept _ _)).trans (withPlayEntry_called _ completeEntry_called _ _)
  · exact (modCsc_called s _ (emptySlot_kept _ _)).trans (withPlayEntry_called _ pushEntry_called _ _)
  · exact Called.refl s

theorem faultRises_called (s : State) : Called s (faultRises s) := by
  unfold faultRises
  split
  · exact paFault_called _ s
  · exact Called.refl s

end Sys2Proof.Machine
end

