-- ==== Sys2Proof/Laws/Motion.lean ====
section
/-!
SUPPORT. What the operations of the Element Table Unit do (Machine/Operations.lean): each changes one element's operation,
its outputs, events and attentions, and nothing else.
-/

namespace Sys2Proof.Machine

/-! ### The frame relations -/

/-- An operation record stands exactly beside an activity that is not IDLE (R20). -/
def ElemRun.opFits (r : ElemRun) : Prop := r.op.isSome = true ↔ r.activity ≠ .idle

/-- Motion within one event: the report list is not yet rewritten, and every record fits its activity as before. -/
structure Motion (s t : State) : Prop extends OnlyMotion s t where
  grew    : ∀ p, PortGrew (s.port p) (t.port p)
  events  : s.rpu.events.length ≤ eventCapacity → t.rpu.events.length ≤ eventCapacity
  reports : t.etu.reports = s.etu.reports
  fits    : ∀ e, (s.elem e).opFits → (t.elem e).opFits

/-- Motion of one element: every other element, the Drive Power Manager and every other output stand. -/
structure AtElem (e : ElemId) (s t : State) : Prop extends Motion s t where
  others  : ∀ d, d ≠ e → t.elem d = s.elem d
  dpm     : t.dpm = s.dpm
  outputs : OutputsKept [e] [] s t

theorem NodeKept.refl (r : NodeRun) : NodeKept r r := rfl
theorem NodeKept.trans {a b c : NodeRun} (h : NodeKept a b) (k : NodeKept b c) : NodeKept a c := by
  unfold NodeKept at *
  rw [k, h]
theorem NodeKept.inputs {a b : NodeRun} (h : NodeKept a b) : b.inputs = a.inputs := by rw [h]
theorem NodeKept.state {a b : NodeRun} (h : NodeKept a b) : b.state = a.state := by rw [h]

theorem ElemKept.refl (r : ElemRun) : ElemKept r r := rfl
theorem ElemKept.trans {a b c : ElemRun} (h : ElemKept a b) (k : ElemKept b c) : ElemKept a c := by
  unfold ElemKept at *
  rw [k, h]
theorem ElemKept.enabled {a b : ElemRun} (h : ElemKept a b) : b.enabled = a.enabled := by rw [h]
theorem ElemKept.mask {a b : ElemRun} (h : ElemKept a b) : b.mask = a.mask := by rw [h]
theorem ElemKept.multipath {a b : ElemRun} (h : ElemKept a b) : b.multipath = a.multipath := by rw [h]
theorem ElemKept.cls {a b : ElemRun} (h : ElemKept a b) : b.cls = a.cls := by rw [h]
theorem ElemKept.position {a b : ElemRun} (h : ElemKept a b) : b.position = a.position := by rw [h]
theorem ElemKept.lock {a b : ElemRun} (h : ElemKept a b) : b.lock = a.lock := by rw [h]
theorem ElemKept.hold {a b : ElemRun} (h : ElemKept a b) : b.hold = a.hold := by rw [h]

theorem OnlyMotion.refl (s : State) : OnlyMotion s s :=
  ⟨rfl, rfl, fun _ => PortKept.refl _, fun _ => ElemKept.refl _, rfl, rfl, rfl, rfl, rfl, fun _ => NodeKept.refl _,
    rfl, rfl, rfl, rfl, rfl⟩

theorem OnlyMotion.trans {a b c : State} (h : OnlyMotion a b) (k : OnlyMotion b c) : OnlyMotion a c :=
  ⟨k.time.trans h.time, k.cfg.trans h.cfg, fun p => (h.ports p).trans (k.ports p),
    fun e => (h.elems e).trans (k.elems e), k.auth.trans h.auth, k.alarmed.trans h.alarmed, k.zones.trans h.zones,
    k.csc.trans h.csc, k.masks.trans h.masks, fun n => (h.nodes n).trans (k.nodes n), k.exchange.trans h.exchange,
    k.served.trans h.served, k.driving.trans h.driving, k.ftxd.trans h.ftxd, k.pending.trans h.pending⟩

theorem Motion.refl (s : State) : Motion s s :=
  ⟨OnlyMotion.refl s, fun _ => PortGrew.refl _, id, rfl, fun _ h => h⟩

theorem Motion.trans {a b c : State} (h : Motion a b) (k : Motion b c) : Motion a c :=
  ⟨h.toOnlyMotion.trans k.toOnlyMotion, fun p => (h.grew p).trans (k.grew p), fun x => k.events (h.events x),
    k.reports.trans h.reports, fun e x => k.fits e (h.fits e x)⟩

/-- The channels of elements and units are the loaded configuration's. -/
theorem outputsOf_cfg {s t : State} (h : t.cfg = s.cfg) (es : List ElemId) (us : List UnitId) :
    t.outputsOf es us = s.outputsOf es us := by
  unfold State.outputsOf State.elemCfg State.unitCfg
  rw [h]

/-- The channels of one element. -/
theorem outputsOf_elem {s : State} {e : ElemId} {c : ElementCfg} (h : s.elemCfg e = some c) :
    s.outputsOf [e] [] = elementOutputs c := by
  simp [State.outputsOf, h]

theorem OutputsKept.refl (es : List ElemId) (us : List UnitId) (s : State) : OutputsKept es us s s := fun _ _ => rfl

theorem OutputsKept.of_flc {s t : State} (es : List ElemId) (us : List UnitId) (h : t.flc = s.flc) :
    OutputsKept es us s t := by
  intro w _
  unfold State.output State.node
  rw [h]

theorem OutputsKept.trans {es : List ElemId} {us : List UnitId} {a b c : State} (hc : b.cfg = a.cfg)
    (h : OutputsKept es us a b) (k : OutputsKept es us b c) : OutputsKept es us a c := fun w hw =>
  (k w (by rw [outputsOf_cfg hc]; exact hw)).trans (h w hw)

/-- Fewer elements and units write no more. -/
theorem OutputsKept.mono {es ds : List ElemId} {us vs : List UnitId} {s t : State} (h : OutputsKept es us s t)
    (he : es ⊆ ds) (hu : us ⊆ vs) : OutputsKept ds vs s t := by
  intro w hw
  refine h w fun hm => hw ?_
  unfold State.outputsOf at hm ⊢
  rcases List.mem_append.1 hm with hm | hm
  · obtain ⟨c, hc, hw⟩ := List.mem_flatMap.1 hm
    obtain ⟨e, hi, hc⟩ := List.mem_filterMap.1 hc
    exact List.mem_append_left _ (List.mem_flatMap.2 ⟨c, List.mem_filterMap.2 ⟨e, he hi, hc⟩, hw⟩)
  · obtain ⟨u, hi, hu'⟩ := List.mem_filterMap.1 hm
    exact List.mem_append_right _ (List.mem_filterMap.2 ⟨u, hu hi, hu'⟩)

theorem AtElem.refl (e : ElemId) (s : State) : AtElem e s s :=
  ⟨Motion.refl s, fun _ _ => rfl, rfl, OutputsKept.refl _ _ s⟩

theorem AtElem.trans {e : ElemId} {a b c : State} (h : AtElem e a b) (k : AtElem e b c) : AtElem e a c :=
  ⟨h.toMotion.trans k.toMotion, fun d hd => (k.others d hd).trans (h.others d hd), k.dpm.trans h.dpm,
    h.outputs.trans h.cfg k.outputs⟩

theorem foldl_motion {α : Type} (f : State → α → State) (hf : ∀ s a, Motion s (f s a)) (l : List α) (s : State) :
    Motion s (l.foldl f s) := by
  induction l generalizing s with
  | nil => exact Motion.refl s
  | cons a l ih => exact (hf s a).trans (ih _)

/-! ### What motion leaves at each record -/

section
variable {s t : State}

theorem OnlyMotion.elemCfg (h : OnlyMotion s t) (e : ElemId) : t.elemCfg e = s.elemCfg e := by
  unfold State.elemCfg; rw [h.cfg]
theorem OnlyMotion.zoneCfg (h : OnlyMotion s t) (z : ZoneId) : t.zoneCfg z = s.zoneCfg z := by
  unfold State.zoneCfg; rw [h.cfg]
theorem OnlyMotion.unitCfg (h : OnlyMotion s t) (u : UnitId) : t.unitCfg u = s.unitCfg u := by
  unfold State.unitCfg; rw [h.cfg]
theorem OnlyMotion.at_auth (h : OnlyMotion s t) (p : Port) : t.auth p = s.auth p := by
  unfold State.auth; rw [h.auth]
theorem OnlyMotion.zone (h : OnlyMotion s t) (z : ZoneId) : t.zone z = s.zone z := by
  unfold State.zone; rw [h.zones]
theorem OnlyMotion.role (h : OnlyMotion s t) (p : Port) : t.role p = s.role p := (h.ports p).role
theorem OnlyMotion.input (h : OnlyMotion s t) (c : Option Chan) : t.input c = s.input c := by
  cases c with
  | none => rfl
  | some c => unfold State.input; simp only [(h.nodes c.node).inputs]

theorem OnlyReported.toOnlyMotion (h : OnlyReported s t) : OnlyMotion s t :=
  ⟨h.time, h.cfg, h.ports, fun e => by rw [h.elem e]; exact ElemKept.refl _, by rw [h.etu], by rw [h.etu], h.zones,
    h.csc, h.masks, fun n => by rw [h.node n]; exact NodeKept.refl _, by rw [h.flc], by rw [h.flc], by rw [h.flc],
    by rw [h.flc], h.pending⟩

theorem Reported.toMotion (h : Reported s t) : Motion s t :=
  ⟨h.toOnlyReported.toOnlyMotion, h.grew, h.events, by rw [h.etu], fun e => by rw [h.elem e]; exact id⟩

theorem Reported.toAtElem (h : Reported s t) (e : ElemId) : AtElem e s t :=
  ⟨h.toMotion, fun d _ => h.elem d, h.dpm, OutputsKept.of_flc _ _ h.flc⟩
end

/-! ### Outputs -/

theorem modNode_outputs_motion (s : State) (n : NodeId) (w : NodeRun → Word16) :
    Motion s (s.modNode n fun r => { r with outputs := w r }) := by
  refine ⟨⟨rfl, rfl, fun _ => PortKept.refl _, fun _ => ElemKept.refl _, rfl, rfl, rfl, rfl, rfl, fun m => ?_, rfl,
    rfl, rfl, rfl, rfl⟩, fun _ => PortGrew.refl _, id, rfl, fun _ h => h⟩
  rw [modNode_node]
  split
  · exact rfl
  · exact NodeKept.refl _

theorem drive_motion (s : State) (c : Option Chan) (b : Bool) : Motion s (s.drive c b) := by
  cases c with
  | none => exact Motion.refl s
  | some c => exact modNode_outputs_motion s c.node _

/-- A drive changes no element, port, timer or unit: only the flc. -/
theorem drive_etu (s : State) (c : Option Chan) (b : Bool) : (s.drive c b).etu = s.etu := by
  cases c <;> rfl

theorem drive_dpm (s : State) (c : Option Chan) (b : Bool) : (s.drive c b).dpm = s.dpm := by
  cases c <;> rfl

theorem drive_cfg (s : State) (c : Option Chan) (b : Bool) : (s.drive c b).cfg = s.cfg := by
  cases c <;> rfl

/-- A bit of an image after one bit of it was written. -/
theorem setBit_getLsbD (w : Word16) (i j : Fin 16) (b : Bool) :
    (setBit w i b).getLsbD j.val = if i = j then b else w.getLsbD j.val := by
  unfold setBit
  have hi := i.isLt
  have hj := j.isLt
  by_cases h : i = j
  · subst h
    cases b <;> simp
  · have h' : (i : Nat) ≠ j := fun x => h (Fin.ext x)
    rcases lt_or_gt_of_ne h' with h1 | h1 <;> cases b <;> simp [h] <;> omega

/-- A drive writes its own channel and no other (R188). -/
theorem drive_output (s : State) (c : Option Chan) (b : Bool) (w : Chan) :
    (s.drive c b).output w = if c = some w then b else s.output w := by
  cases c with
  | none => rfl
  | some c =>
    unfold State.drive State.output
    rw [modNode_node]
    by_cases hn : w.node = c.node
    · rw [if_pos hn]
      simp only [setBit_getLsbD, hn]
      by_cases hl : c.line = w.line
      · rw [if_pos hl, if_pos]
        cases c; cases w; simp only at hn hl; rw [hn, hl]
      · rw [if_neg hl, if_neg (fun h => hl (by cases h; rfl))]
    · rw [if_neg hn, if_neg (fun h => hn (by cases h; rfl))]

/-- A drive of one of these elements' and units' outputs. -/
theorem drive_outputsKept {s : State} {es : List ElemId} {us : List UnitId} {c : Option Chan} (b : Bool)
    (h : ∀ w, c = some w → w ∈ s.outputsOf es us) : OutputsKept es us s (s.drive c b) := by
  intro w hw
  rw [drive_output, if_neg fun hc => hw (h w hc)]

theorem drive_atElem {e : ElemId} {s : State} {c : Option Chan} (b : Bool)
    (h : ∀ w, c = some w → w ∈ s.outputsOf [e] []) : AtElem e s (s.drive c b) :=
  ⟨drive_motion s c b, fun _ _ => by unfold State.elem; rw [drive_etu], drive_dpm s c b, drive_outputsKept b h⟩

theorem writeOutputs_atElem (e : ElemId) (s : State) : AtElem e s (writeOutputs e s) := by
  unfold writeOutputs
  split
  · exact AtElem.refl e s
  · rename_i c hc
    have h : ∀ (o : Option Chan), o ∈ [c.driveOpen, c.driveClose, c.lock, c.unlock, c.warning] →
        ∀ t : State, t.cfg = s.cfg → ∀ w, o = some w → w ∈ t.outputsOf [e] [] := by
      intro o ho t ht w hw
      rw [outputsOf_cfg ht, outputsOf_elem hc]
      exact List.mem_filterMap.2 ⟨o, ho, hw⟩
    exact ((((drive_atElem _ (h _ (by simp) _ rfl)).trans (drive_atElem _ (h _ (by simp) _ (by simp only [drive_cfg])))).trans
      (drive_atElem _ (h _ (by simp) _ (by simp only [drive_cfg])))).trans
      (drive_atElem _ (h _ (by simp) _ (by simp only [drive_cfg])))).trans
      (drive_atElem _ (h _ (by simp) _ (by simp only [drive_cfg])))

theorem writeOutputs_etu (e : ElemId) (s : State) : (writeOutputs e s).etu = s.etu := by
  unfold writeOutputs
  split
  · rfl
  · simp only [drive_etu]

theorem writeOutputs_elem (e d : ElemId) (s : State) : (writeOutputs e s).elem d = s.elem d := by
  unfold State.elem
  rw [writeOutputs_etu]

/-! ### One element's record -/

/-- A change of one element's operation part. -/
theorem modElem_atElem (e : ElemId) (s : State) (f : ElemRun → ElemRun) (hk : ElemKept (s.elem e) (f (s.elem e)))
    (hf : (s.elem e).opFits → (f (s.elem e)).opFits) : AtElem e s (s.modElem e f) := by
  refine ⟨⟨⟨rfl, rfl, fun _ => PortKept.refl _, fun d => ?_, rfl, rfl, rfl, rfl, rfl, fun _ => NodeKept.refl _, rfl,
    rfl, rfl, rfl, rfl⟩, fun _ => PortGrew.refl _, id, rfl, fun d => ?_⟩, fun d hd => ?_, rfl, OutputsKept.of_flc _ _ rfl⟩
  · rw [modElem_elem]
    split
    · rename_i h; subst h; exact hk
    · exact ElemKept.refl _
  · rw [modElem_elem]
    split
    · rename_i h; subst h; exact hf
    · exact id
  · rw [modElem_elem, if_neg hd]

theorem modOp_atElem (e : ElemId) (s : State) (f : OpRec → OpRec) : AtElem e s (s.modOp e f) :=
  modElem_atElem e s _ rfl (by simp [ElemRun.opFits])

theorem setOwed_atElem (e : ElemId) (b : Bool) (s : State) : AtElem e s (setOwed e b s) :=
  modElem_atElem e s _ rfl id

theorem enter_fits (c : ElementCfg) (st : Stage) (r : ElemRun) (h : r.opFits) : (r.enter c st).opFits := by
  unfold ElemRun.enter
  split
  · exact h
  · rename_i o ho
    unfold ElemRun.opFits at *
    simpa [ho] using h

theorem enter_kept (c : ElementCfg) (st : Stage) (r : ElemRun) : ElemKept r (r.enter c st) := by
  unfold ElemRun.enter
  split
  · exact ElemKept.refl r
  · exact rfl

theorem enterStage_atElem (e : ElemId) (c : ElementCfg) (st : Stage) (s : State) : AtElem e s (enterStage e c st s) :=
  (modElem_atElem e s _ (enter_kept c st _) (enter_fits c st _)).trans (writeOutputs_atElem e _)

/-! ### Closures -/

theorem createClosure_atElem (e : ElemId) (c : ElementCfg) (s : State) : AtElem e s (createClosure e c s) := by
  refine AtElem.trans (modElem_atElem e s _ ?_ ?_) (enterStage_atElem e c .warn _)
  · dsimp only; split <;> rfl
  · intro _; simp [ElemRun.opFits]

theorem closureTest_atElem (e : ElemId) (c : ElementCfg) (s : State) : AtElem e s (closureTest e c s) := by
  unfold closureTest
  split
  · exact createClosure_atElem e c s
  · exact AtElem.refl e s

theorem raise_atElem (e : ElemId) (s : State) (k : EventKind) (source : Byte) (detail : Word16) :
    AtElem e s (s.raise k source detail) := (raise_reported s k source detail).toAtElem e

theorem doorUnavailable_atElem (e : ElemId) (c : ElementCfg) (s : State) : AtElem e s (doorUnavailable e c s) := by
  unfold doorUnavailable
  split <;> exact raise_atElem e s _ _ _

/-! ### Endings -/

theorem finish_kept (code : Completion) (r : ElemRun) : ElemKept r (r.finish code) := by
  unfold ElemRun.finish
  split <;> exact rfl

theorem finish_fits (code : Completion) (r : ElemRun) (h : r.opFits) : (r.finish code).opFits := by
  unfold ElemRun.finish
  split
  · exact h
  · simp [ElemRun.opFits]

theorem endRecord_atElem (e : ElemId) (code : Completion) (s : State) : AtElem e s (endRecord e code s) :=
  (modElem_atElem e s _ (finish_kept code _) (finish_fits code _)).trans (writeOutputs_atElem e _)

theorem markedEnding_atElem (e : ElemId) (code : Completion) (s : State) : AtElem e s (markedEnding e code s) := by
  unfold markedEnding
  dsimp only
  have h : AtElem e s (if code.clearsOwed then setOwed e false s else s) := by
    split
    · exact setOwed_atElem e false s
    · exact AtElem.refl e s
  generalize (if code.clearsOwed then setOwed e false s else s) = u at h ⊢
  refine h.trans ?_
  split
  · exact raise_atElem e _ _ _ _
  · exact AtElem.refl e _

theorem endOp_atElem (e : ElemId) (code : Completion) (s : State) : AtElem e s (endOp e code s) := by
  unfold endOp
  dsimp only
  split
  · refine AtElem.trans ?_ (closureTest_atElem e _ _)
    split
    · exact (endRecord_atElem e code s).trans (markedEnding_atElem e code _)
    · exact endRecord_atElem e code s
  · exact endRecord_atElem e code s

/-! ### Stage ends -/

theorem settleStage_atElem (n : Nat) (e : ElemId) (s : State) : AtElem e s (settleStage n e s) := by
  induction n generalizing s with
  | zero => exact AtElem.refl e s
  | succ n ih =>
    unfold settleStage
    split
    · rename_i c o hc ho
      split
      · split
        · exact (enterStage_atElem e c _ s).trans (ih _)
        · exact endOp_atElem e .done s
      · split
        · dsimp only
          split
          · exact ((modOp_atElem e s _).trans (enterStage_atElem e c _ _)).trans (ih _)
          · exact (modOp_atElem e s _).trans (endOp_atElem e .obstructed _)
        · exact AtElem.refl e s
    · exact AtElem.refl e s

theorem advance_atElem (e : ElemId) (s : State) : AtElem e s (advance e s) := by
  unfold advance
  split
  · split
    · exact (enterStage_atElem e _ _ s).trans (settleStage_atElem _ e _)
    · exact endOp_atElem e .done s
  · exact AtElem.refl e s

/-! ### Suspension -/

theorem suspend_kept (add : OpRec → OpRec) (r : ElemRun) : ElemKept r (r.suspend add) := by
  unfold ElemRun.suspend
  split <;> exact rfl

theorem suspend_fits (add : OpRec → OpRec) (r : ElemRun) (h : r.opFits) : (r.suspend add).opFits := by
  unfold ElemRun.suspend
  split
  · simp [ElemRun.opFits]
  · rename_i ha ho; simp [ElemRun.opFits, ha]
  · exact h

theorem suspend_atElem (e : ElemId) (add : OpRec → OpRec) (s : State) : AtElem e s (suspend e add s) :=
  (modElem_atElem e s _ (suspend_kept add _) (suspend_fits add _)).trans (writeOutputs_atElem e _)

theorem reactivate_kept (r : ElemRun) : ElemKept r r.reactivate := by
  unfold ElemRun.reactivate
  split <;> exact rfl

theorem reactivate_fits (r : ElemRun) (h : r.opFits) : r.reactivate.opFits := by
  unfold ElemRun.reactivate
  split
  · simp [ElemRun.opFits]
  · exact h

theorem returnToActive_atElem (e : ElemId) (s : State) : AtElem e s (returnToActive e s) := by
  unfold returnToActive
  split
  · split
    · exact ((modElem_atElem e s _ (reactivate_kept _) (reactivate_fits _)).trans (writeOutputs_atElem e _)).trans
        (settleStage_atElem _ e _)
    · exact AtElem.refl e s
  · exact AtElem.refl e s

theorem interlockTest_atElem (e : ElemId) (s : State) : AtElem e s (interlockTest e s) := by
  unfold interlockTest
  split
  · exact suspend_atElem e _ s
  · exact AtElem.refl e s

end Sys2Proof.Machine
end

