-- ==== Sys2Proof/Laws/Power.lean ====
section
/-!
SUPPORT. What the Drive Power Manager does (Machine/Power.lean): the tasks of a hand-over leave every element at rest and
every unit in FAULT as they are, and keep the slots within a unit's capacity.
-/

namespace Sys2Proof.Machine

/-- No operation is in progress. -/
def ElemRun.atRest (r : ElemRun) : Prop := r.activity = .idle ∨ r.activity = .ended

/-- What tasks do. -/
structure Ran (s t : State) : Prop extends Motion s t where
  rest   : ∀ e, (s.elem e).atRest → t.elem e = s.elem e
  failed : ∀ u, (s.unit u).state = .fault → (t.unit u).state = .fault ∧ (t.unit u).reason = (s.unit u).reason
  slots  : SlotsInCapacity s → SlotsInCapacity t

theorem Ran.refl (s : State) : Ran s s := ⟨Motion.refl s, fun _ _ => rfl, fun _ h => ⟨h, rfl⟩, id⟩

theorem Ran.trans {a b c : State} (h : Ran a b) (k : Ran b c) : Ran a c := by
  refine ⟨h.toMotion.trans k.toMotion, fun e r => ?_, fun u f => ?_, fun x => k.slots (h.slots x)⟩
  · rw [k.rest e (by rw [h.rest e r]; exact r), h.rest e r]
  · have h1 := h.failed u f
    have h2 := k.failed u h1.1
    exact ⟨h2.1, h2.2.trans h1.2⟩

theorem foldl_ran {α : Type} (f : State → α → State) (hf : ∀ s a, Ran s (f s a)) (l : List α) (s : State) :
    Ran s (l.foldl f s) := by
  induction l generalizing s with
  | nil => exact Ran.refl s
  | cons a l ih => exact (hf s a).trans (ih _)

/-! ### Units and the queue -/

theorem slots_of_units {s t : State} (h : ∀ u, t.unit u = s.unit u) : SlotsInCapacity s → SlotsInCapacity t := by
  intro x u
  rw [h u]
  exact x u

theorem AtElem.unit {e : ElemId} {s t : State} (h : AtElem e s t) (u : UnitId) : t.unit u = s.unit u := by
  unfold State.unit
  rw [h.dpm]

/-- Motion of an element in progress leaves the elements at rest and the units alone. -/
theorem AtElem.toRan {e : ElemId} {s t : State} (h : AtElem e s t) (ha : ¬ (s.elem e).atRest) : Ran s t := by
  refine ⟨h.toMotion, fun d hd => h.others d ?_, fun u hf => by rw [h.unit u]; exact ⟨hf, rfl⟩, slots_of_units h.unit⟩
  rintro rfl
  exact ha hd

theorem modUnit_motion (s : State) (u : UnitId) (f : UnitRun → UnitRun) : Motion s (s.modUnit u f) :=
  ⟨⟨rfl, rfl, fun _ => PortKept.refl _, fun _ => ElemKept.refl _, rfl, rfl, rfl, rfl, rfl, fun _ => NodeKept.refl _, rfl,
    rfl, rfl, rfl, rfl⟩, fun _ => PortGrew.refl _, id, rfl, fun _ h => h⟩

theorem setQueue_motion (s : State) (q : List Waiter) : Motion s (s.setQueue q) :=
  ⟨⟨rfl, rfl, fun _ => PortKept.refl _, fun _ => ElemKept.refl _, rfl, rfl, rfl, rfl, rfl, fun _ => NodeKept.refl _, rfl,
    rfl, rfl, rfl, rfl⟩, fun _ => PortGrew.refl _, id, rfl, fun _ h => h⟩

/-- A unit's record is within capacity (R91). -/
def UnitRun.slotsOk (r : UnitRun) : Prop := r.used ≤ slotCapacity ∧ (r.holders ≠ [] → r.state = .serving)

/-- A change of one unit's record that keeps it within capacity and leaves a unit in FAULT alone. -/
theorem modUnit_ran (s : State) (u : UnitId) (f : UnitRun → UnitRun)
    (hf : (s.unit u).state = .fault → (f (s.unit u)).state = .fault ∧ (f (s.unit u)).reason = (s.unit u).reason)
    (hs : (s.unit u).slotsOk → (f (s.unit u)).slotsOk) : Ran s (s.modUnit u f) := by
  refine ⟨modUnit_motion s u f, fun _ _ => rfl, fun v hv => ?_, fun x v => ?_⟩
  · rw [modUnit_unit]
    split
    · rename_i h; subst h; exact hf hv
    · exact ⟨hv, rfl⟩
  · rw [modUnit_unit]
    split
    · rename_i h; subst h; exact hs (x v)
    · exact x v

theorem setQueue_ran (s : State) (q : List Waiter) : Ran s (s.setQueue q) :=
  ⟨setQueue_motion s q, fun _ _ => rfl, fun _ h => ⟨h, rfl⟩, id⟩

theorem leaveQueue_ran (e : ElemId) (s : State) : Ran s (leaveQueue e s) := setQueue_ran s _

theorem drive_ran (s : State) (c : Option Chan) (b : Bool) : Ran s (s.drive c b) := by
  have h : ∀ u, (s.drive c b).unit u = s.unit u := fun u => by unfold State.unit; rw [drive_dpm]
  refine ⟨drive_motion s c b, fun e _ => ?_, fun u hf => by rw [h u]; exact ⟨hf, rfl⟩, slots_of_units h⟩
  unfold State.elem
  rw [drive_etu]

theorem raise_ran (s : State) (k : EventKind) (source : Byte) (detail : Word16) : Ran s (s.raise k source detail) := by
  have h := raise_reported s k source detail
  exact ⟨h.toMotion, fun e _ => h.elem e, fun u hf => by rw [h.unit u]; exact ⟨hf, rfl⟩, slots_of_units h.unit⟩

theorem filter_used (f : Holder → Bool) (l : List Holder) :
    ((l.filter f).map Holder.weight).sum ≤ (l.map Holder.weight).sum := by
  induction l with
  | nil => simp
  | cons h l ih =>
    rw [List.filter_cons]
    split
    · simpa using ih
    · simp only [List.map_cons, List.sum_cons]; omega

theorem dropHolders_slots (f : Holder → Bool) (r : UnitRun) (h : r.slotsOk) :
    UnitRun.slotsOk { r with holders := r.holders.filter f } := by
  refine ⟨(filter_used f r.holders).trans h.1, fun hn => h.2 ?_⟩
  rintro hz
  exact hn (by simp [hz])

/-- A grant that fits (R91). -/
theorem grantSlot_ran (u : UnitId) (h : Holder) (s : State) (hw : h.weight ≤ (s.unit u).free)
    (hr : (s.unit u).state ≠ .fault) : Ran s (grantSlot u h s) := by
  refine Ran.trans (modUnit_ran s u _ (fun hf => absurd hf hr) ?_) (leaveQueue_ran _ _)
  intro hs
  refine ⟨?_, fun _ => rfl⟩
  have h1 := hs.1
  unfold UnitRun.free at hw
  simp only [UnitRun.grant, UnitRun.used, List.map_append, List.sum_append] at *
  simp
  omega

theorem toReady_ran (u : UnitId) (s : State) : Ran s (s.modUnit u UnitRun.toReady) := by
  refine modUnit_ran s u _ (fun hf => ?_) fun hs => ?_
  · unfold UnitRun.toReady; rw [if_neg (by rw [hf]; decide)]; exact ⟨hf, rfl⟩
  · unfold UnitRun.toReady
    split
    · rename_i h
      refine ⟨hs.1, fun hn => ?_⟩
      have := hs.2 hn
      rw [h] at this
      cases this
    · exact hs

theorem settle_ran (u : UnitId) (n : Nat) (s : State) : Ran s (s.modUnit u (UnitRun.settle n)) := by
  refine modUnit_ran s u _ (fun hf => ?_) fun hs => ?_
  · unfold UnitRun.settle
    rw [if_neg (by rintro ⟨h, -⟩; simp [UnitRun.running, hf] at h)]
    exact ⟨hf, rfl⟩
  · unfold UnitRun.settle
    split
    · rename_i h
      exact ⟨hs.1, fun hn => absurd h.2 hn⟩
    · exact hs

theorem start_ran (u : UnitId) (s : State) (ho : (s.unit u).state = .off) : Ran s (s.modUnit u UnitRun.start) := by
  refine modUnit_ran s u _ (fun hf => ?_) fun hs => ?_
  · rw [ho] at hf; cases hf
  · refine ⟨hs.1, fun hn => ?_⟩
    have := hs.2 hn
    rw [ho] at this
    cases this

theorem UnitRun.open_not_fault {r : UnitRun} (h : r.open = true) : r.state ≠ .fault := by
  intro hf
  simp [UnitRun.open, UnitRun.running, hf] at h

theorem candidate_not_fault {s : State} {path : PathMask} {u : UnitId} (h : s.candidate path u = true) :
    (s.unit u).state ≠ .fault := by
  unfold State.candidate at h
  simp only [Bool.and_eq_true, decide_eq_true_eq] at h
  exact h.2

/-! ### Tasks -/

theorem taskRelease_ran (e : ElemId) (s : State) : Ran s (taskRelease e s).1 := by
  unfold taskRelease
  split
  · exact modUnit_ran s _ _ (fun hf => ⟨hf, rfl⟩) (dropHolders_slots _ _)
  · split
    · exact leaveQueue_ran e s
    · exact Ran.refl s

theorem taskWalk_ran (u : UnitId) (s : State) : Ran s (taskWalk u s).1 := by
  unfold taskWalk
  split
  · rename_i ho
    split
    · split
      · rename_i hw
        exact grantSlot_ran u _ s hw (UnitRun.open_not_fault ho)
      · exact Ran.refl s
    · exact Ran.refl s
  · exact Ran.refl s

theorem not_atRest_of_startPending {r : ElemRun} (h : r.activity = .startPending) : ¬ r.atRest := by
  rintro (h' | h') <;> rw [h] at h' <;> cases h'

theorem not_atRest_of_suspended {r : ElemRun} (h : r.activity = .suspended) : ¬ r.atRest := by
  rintro (h' | h') <;> rw [h] at h' <;> cases h'

theorem not_atRest_of_active {r : ElemRun} (h : r.activity = .active) : ¬ r.atRest := by
  rintro (h' | h') <;> rw [h] at h' <;> cases h'

theorem not_atRest_of_inProgress {r : ElemRun} (h : r.activity.inProgress = true) : ¬ r.atRest := by
  rintro (h' | h') <;> rw [h'] at h <;> cases h

/-- A grant reaches one element, whose operation may end (R44, R54). -/
theorem taskArrive_atElem (e : ElemId) (u : UnitId) (s : State) : AtElem e s (taskArrive e u s).1 := by
  unfold taskArrive
  split
  · rename_i ha ho
    dsimp only
    have h : AtElem e s (advance e (s.modElem e (ElemRun.granted u))) := by
      refine AtElem.trans (modElem_atElem e s (ElemRun.granted u) ?_ ?_) (advance_atElem e _)
      · exact rfl
      · intro _
        simp [ElemRun.opFits, ElemRun.granted, ho]
    split
    · exact h.trans (interlockTest_atElem e _)
    · exact h
  · split
    · exact (modOp_atElem e s _).trans (returnToActive_atElem e _)
    · exact AtElem.refl e s
  · exact AtElem.refl e s

theorem taskArrive_ran (e : ElemId) (u : UnitId) (s : State) : Ran s (taskArrive e u s).1 := by
  by_cases h : (s.elem e).atRest
  · have : (taskArrive e u s).1 = s := by
      unfold taskArrive
      split
      · rename_i ha _; exact absurd h (not_atRest_of_startPending ha)
      · rename_i ha _; exact absurd h (not_atRest_of_suspended ha)
      · rfl
    rw [this]
    exact Ran.refl s
  · exact (taskArrive_atElem e u s).toRan h

theorem taskStartCheck_ran (e : ElemId) (s : State) : Ran s (taskStartCheck e s).1 := by
  unfold taskStartCheck
  split
  · split
    · exact Ran.refl s
    · split
      · rename_i u hu
        have := List.find?_some hu
        simp only [Bool.and_eq_true, decide_eq_true_eq] at this
        exact (start_ran u s this.2).trans (drive_ran _ _ _)
      · exact Ran.refl s
  · exact Ran.refl s

theorem taskJoinWalk_state (e : ElemId) (us : List UnitId) (s : State) : (taskJoinWalk e us s).1 = s := by
  unfold taskJoinWalk
  split
  · rfl
  · split <;> rfl

theorem runTask_ran (t : Task) (s : State) : Ran s (runTask t s).1 := by
  unfold runTask
  split
  · exact taskRelease_ran _ s
  · exact taskWalk_ran _ s
  · exact settle_ran _ _ s
  · exact taskArrive_ran _ _ s
  · rw [taskJoinWalk_state]; exact Ran.refl s
  · exact taskStartCheck_ran _ s
  · exact toReady_ran _ s
  · exact raise_ran s _ _ _

theorem runTasks_ran (n : Nat) (ts : List Task) (s : State) : Ran s (runTasks n ts s) := by
  induction n generalizing ts s with
  | zero => exact Ran.refl s
  | succ n ih =>
    cases ts with
    | nil => exact Ran.refl s
    | cons t ts => exact (runTask_ran t s).trans (ih _ _)

theorem dpm_ran (ts : List Task) (s : State) : Ran s (dpm ts s) := runTasks_ran _ ts s

/-- No tasks, no change. -/
theorem dpm_nil (s : State) : dpm [] s = s := rfl

theorem handRelease_ran (e : ElemId) (s : State) : Ran s (handRelease e s) := dpm_ran _ s

theorem endAndRelease_motion (e : ElemId) (code : Completion) (s : State) : Motion s (endAndRelease e code s) :=
  (endOp_atElem e code s).toMotion.trans (dpm_ran _ _).toMotion

theorem endAndRelease_slots (e : ElemId) (code : Completion) (s : State) (h : SlotsInCapacity s) :
    SlotsInCapacity (endAndRelease e code s) :=
  (dpm_ran _ _).slots (slots_of_units (endOp_atElem e code s).unit h)

/-! ### Slot requests, batches and faults -/

theorem slotRequest_ran (w : Waiter) (s : State) : Ran s (slotRequest w s) := by
  unfold slotRequest
  dsimp only
  split
  · exact (setQueue_ran s _).trans (dpm_ran _ _)
  · split
    · rename_i u hu
      have := List.find?_some hu
      simp only [Bool.and_eq_true, decide_eq_true_eq] at this
      exact (grantSlot_ran u w.holder s this.2 (candidate_not_fault this.1)).trans (dpm_ran _ _)
    · exact (setQueue_ran s _).trans (dpm_ran _ _)

theorem batchRelease_ran (es : List ElemId) (s : State) : Ran s (batchRelease es s) := by
  unfold batchRelease
  dsimp only
  refine Ran.trans ((setQueue_ran s _).trans (foldl_ran _ (fun s u => ?_) _ _)) (dpm_ran _ _)
  exact modUnit_ran s u _ (fun hf => ⟨hf, rfl⟩) (dropHolders_slots _ _)

theorem revoke_atElem (u : UnitId) (h : Holder) (s : State) : AtElem h.elem s (revoke u h s) := by
  unfold revoke
  split
  · split
    · split
      · exact suspend_atElem _ _ s
      · exact endOp_atElem _ _ s
    · exact AtElem.refl _ s
  · exact AtElem.refl _ s

theorem failPath_motion (s : State) (w : Waiter) : Motion s (failPath s w) := by
  unfold failPath
  split
  · exact Motion.refl s
  · exact (endOp_atElem _ _ s).toMotion.trans (leaveQueue_ran _ _).toMotion

theorem failPath_unit (s : State) (w : Waiter) (u : UnitId) : (failPath s w).unit u = s.unit u := by
  unfold failPath
  split
  · rfl
  · exact (endOp_atElem w.elem .pathFailed s).unit u

theorem foldl_unit {α : Type} (f : State → α → State) (hf : ∀ s a u, (f s a).unit u = s.unit u) (l : List α)
    (s : State) (u : UnitId) : (l.foldl f s).unit u = s.unit u := by
  induction l generalizing s with
  | nil => rfl
  | cons a l ih => rw [List.foldl_cons, ih, hf]

theorem queueCheck_motion (s : State) (after : List Task) : Motion s (queueCheck s after) :=
  (foldl_motion _ failPath_motion _ s).trans (dpm_ran _ _).toMotion

/-- What a fault makes of the units: the one in FAULT, and what the queue check then does (R85, R92). -/
theorem faultUnit_motion (u : UnitId) (reason : FaultReason) (s : State) : Motion s (faultUnit u reason s) := by
  unfold faultUnit
  dsimp only
  have h1 : Motion s (driveStart u false (s.modUnit u (UnitRun.fail reason))) :=
    (modUnit_motion s u _).trans (drive_ran _ _ _).toMotion
  have h2 := foldl_motion (fun s h => revoke u h s) (fun s h => (revoke_atElem u h s).toMotion) (s.unit u).holders
    (driveStart u false (s.modUnit u (UnitRun.fail reason)))
  exact ((h1.trans h2).trans (setQueue_motion _ _)).trans (queueCheck_motion _ _)

/-- The unit records on which a fault's queue check begins. -/
theorem faultUnit_start (u : UnitId) (reason : FaultReason) (s : State) :
    ∃ t, (∀ v, t.unit v = if v = u then (s.unit u).fail reason else s.unit v) ∧ Ran t (faultUnit u reason s) := by
  unfold faultUnit queueCheck
  dsimp only
  refine ⟨_, fun v => ?_, dpm_ran _ _⟩
  rw [foldl_unit _ failPath_unit]
  change (List.foldl (fun s h => revoke u h s) _ _).unit v = _
  rw [foldl_unit _ fun s h v => (revoke_atElem u h s).unit v]
  unfold driveStart
  rw [show ∀ t : State, ∀ c b, (t.drive c b).unit v = t.unit v from fun t c b => by unfold State.unit; rw [drive_dpm],
    modUnit_unit]
  split
  · rename_i h; rw [h]
  · rfl

/-- A unit that enters FAULT is in FAULT after all that the fault brings about (R85). -/
theorem faultUnit_fault (u : UnitId) (reason : FaultReason) (s : State) :
    ((faultUnit u reason s).unit u).state = .fault ∧ ((faultUnit u reason s).unit u).reason = reason := by
  obtain ⟨t, ht, hr⟩ := faultUnit_start u reason s
  have hu : t.unit u = (s.unit u).fail reason := by rw [ht u, if_pos rfl]
  have := hr.failed u (by rw [hu]; rfl)
  rw [hu] at this
  exact this

theorem faultUnit_slots (u : UnitId) (reason : FaultReason) (s : State) (h : SlotsInCapacity s) :
    SlotsInCapacity (faultUnit u reason s) := by
  obtain ⟨t, ht, hr⟩ := faultUnit_start u reason s
  refine hr.slots fun v => ?_
  rw [ht v]
  split
  · exact ⟨by simp [UnitRun.fail, UnitRun.used], fun hn => absurd rfl hn⟩
  · exact h v

theorem notifyUnit_motion (n : NodeId) (was : Option Word16) (lost : Bool) (s : State) (u : UnitId) :
    Motion s (notifyUnit n was lost s u) := by
  unfold notifyUnit
  dsimp only
  split
  · exact faultUnit_motion u _ s
  · split
    · exact (dpm_ran _ s).toMotion
    · exact Motion.refl s

theorem dpmNotify_motion (n : NodeId) (was : Option Word16) (lost : Bool) (s : State) :
    Motion s (dpmNotify n was lost s) := foldl_motion _ (notifyUnit_motion n was lost) _ s

theorem notifyUnit_slots (n : NodeId) (was : Option Word16) (lost : Bool) (s : State) (u : UnitId)
    (h : SlotsInCapacity s) : SlotsInCapacity (notifyUnit n was lost s u) := by
  unfold notifyUnit
  dsimp only
  split
  · exact faultUnit_slots u _ s h
  · split
    · exact (dpm_ran _ s).slots h
    · exact h

theorem startChecks_ran (s : State) : Ran s (startChecks s) := by
  unfold startChecks
  split
  · exact dpm_ran _ s
  · exact Ran.refl s

/-! ### An element that neither waits nor is granted -/

/-- No entry of the slot-wait queue is this element's. -/
def State.notWaiting (s : State) (e : ElemId) : Prop := ∀ w ∈ s.dpm.queue, w.elem ≠ e

theorem notWaiting_of_waits {s : State} {e : ElemId} (h : s.waits e = none) : s.notWaiting e := by
  intro w hw
  have := List.find?_eq_none.1 h w hw
  simpa using this

theorem leaveQueue_notWaiting {s : State} {e : ElemId} (d : ElemId) (h : s.notWaiting e) :
    (leaveQueue d s).notWaiting e := fun w hw => h w (List.mem_of_mem_filter hw)

/-- What one task leaves of an element that does not wait and is not the one granted (R91). -/
theorem runTask_apart (e : ElemId) (t : Task) (s : State) (h : s.notWaiting e) (ht : ∀ u, t ≠ .arrive e u) :
    (runTask t s).1.elem e = s.elem e ∧ (runTask t s).1.notWaiting e ∧ ∀ u, Task.arrive e u ∉ (runTask t s).2 := by
  cases t with
  | release d =>
    simp only [runTask, taskRelease]
    split
    · exact ⟨rfl, h, by simp⟩
    · split
      · exact ⟨rfl, leaveQueue_notWaiting d h, by simp⟩
      · exact ⟨rfl, h, by simp⟩
  | walk u =>
    simp only [runTask, taskWalk]
    split
    · split
      · rename_i w hw
        have hne := h w (List.mem_of_find?_eq_some hw)
        split
        · refine ⟨rfl, leaveQueue_notWaiting w.elem (s := s.modUnit u _) h, fun v hv => ?_⟩
          simp only [List.mem_cons, Task.arrive.injEq, reduceCtorEq, List.not_mem_nil, or_false] at hv
          exact hne hv.1.symm
        · exact ⟨rfl, h, by simp⟩
      · exact ⟨rfl, h, by simp⟩
    · exact ⟨rfl, h, by simp⟩
  | settle u => exact ⟨rfl, h, by simp [runTask]⟩
  | arrive d u =>
    have hd : e ≠ d := fun hd => ht u (by rw [hd])
    have ha := taskArrive_atElem d u s
    refine ⟨ha.others e hd, ?_, fun v hv => ?_⟩
    · intro w hw
      exact h w (by rw [← ha.dpm]; exact hw)
    · simp only [runTask, taskArrive] at hv
      split at hv
      · revert hv; unfold releaseEnded; split <;> simp
      · split at hv
        · revert hv; unfold releaseEnded; split <;> simp
        · simp at hv
      · simp at hv
  | joinWalk d us =>
    cases us with
    | nil => exact ⟨rfl, h, by simp [runTask, taskJoinWalk]⟩
    | cons u us =>
      simp only [runTask, taskJoinWalk]
      split
      · exact ⟨rfl, h, by simp⟩
      · exact ⟨rfl, h, by simp⟩
  | startCheck d =>
    simp only [runTask, taskStartCheck]
    split
    · split
      · exact ⟨rfl, h, by simp⟩
      · split
        · rename_i u _
          refine ⟨?_, ?_, fun v hv => ?_⟩
          · unfold driveStart; unfold State.elem; rw [drive_etu]; rfl
          · intro w hw
            exact h w (by unfold driveStart at hw; rw [drive_dpm] at hw; exact hw)
          · revert hv; split <;> simp
        · exact ⟨rfl, h, by simp⟩
    · exact ⟨rfl, h, by simp⟩
  | ready u => exact ⟨rfl, h, by simp [runTask]⟩
  | faultEvent u =>
    refine ⟨?_, ?_, by simp [runTask]⟩
    · exact congrArg (fun x : Etu => x.elems[e]) (raise_reported s .puFault _ _).etu
    · intro w hw
      exact h w (by rw [← (raise_reported s .puFault (byteOf u.val) ((s.unit u).reason.code.setWidth 16)).dpm]; exact hw)

theorem runTasks_apart (e : ElemId) (n : Nat) (ts : List Task) (s : State) (h : s.notWaiting e)
    (ht : ∀ u, Task.arrive e u ∉ ts) : (runTasks n ts s).elem e = s.elem e := by
  induction n generalizing ts s with
  | zero => rfl
  | succ n ih =>
    cases ts with
    | nil => rfl
    | cons t ts =>
      obtain ⟨h1, h2, h3⟩ := runTask_apart e t s h fun u hu => ht u (by rw [← hu]; exact List.mem_cons_self)
      rw [runTasks, ih _ _ h2, h1]
      intro u hu
      rcases List.mem_append.1 hu with hu | hu
      · exact h3 u hu
      · exact ht u (List.mem_cons_of_mem _ hu)

/-- An element that does not wait, and is not granted by the tasks themselves, is as it was after them (R91). -/
theorem dpm_apart (e : ElemId) (ts : List Task) (s : State) (h : s.notWaiting e) (ht : ∀ u, Task.arrive e u ∉ ts) :
    (dpm ts s).elem e = s.elem e := runTasks_apart e _ ts s h ht

/-! ### The outputs that tasks write -/

/-- A task puts no entry into the slot-wait queue (R89). -/
theorem runTask_queue (t : Task) (s : State) : ∀ w ∈ (runTask t s).1.dpm.queue, w ∈ s.dpm.queue := by
  intro w hw
  cases t with
  | release d =>
    simp only [runTask, taskRelease] at hw
    split at hw
    · exact hw
    · split at hw
      · exact List.mem_of_mem_filter hw
      · exact hw
  | walk u =>
    simp only [runTask, taskWalk] at hw
    split at hw
    · split at hw
      · split at hw
        · exact List.mem_of_mem_filter (l := s.dpm.queue) hw
        · exact hw
      · exact hw
    · exact hw
  | settle u => exact hw
  | arrive d u => rw [runTask, (taskArrive_atElem d u s).dpm] at hw; exact hw
  | joinWalk d us => rw [runTask, taskJoinWalk_state] at hw; exact hw
  | startCheck d =>
    simp only [runTask, taskStartCheck] at hw
    split at hw
    · split at hw
      · exact hw
      · split at hw
        · unfold driveStart at hw; rw [drive_dpm] at hw; exact hw
        · exact hw
    · exact hw
  | ready u => exact hw
  | faultEvent u =>
    rw [runTask, (raise_reported s .puFault (byteOf u.val) ((s.unit u).reason.code.setWidth 16)).dpm] at hw
    exact hw

theorem taskArrive_more (d : ElemId) (v : UnitId) (s : State) :
    (taskArrive d v s).2 = [] ∨ (taskArrive d v s).2 = [.release d] := by
  have h : ∀ t : State, releaseEnded d t = [] ∨ releaseEnded d t = [.release d] := by
    intro t; unfold releaseEnded; split <;> simp
  unfold taskArrive
  split
  · exact h _
  · split
    · exact h _
    · exact .inr rfl
  · exact .inr rfl

/-- A task brings about a grant to a waiter alone (R90), and no start check. -/
theorem runTask_more (t : Task) (s : State) :
    (∀ e u, .arrive e u ∈ (runTask t s).2 → ∃ w ∈ s.dpm.queue, w.elem = e) ∧ ∀ e, .startCheck e ∉ (runTask t s).2 := by
  cases t with
  | release d =>
    simp only [runTask, taskRelease]
    split
    · simp
    · split <;> simp
  | walk u =>
    simp only [runTask, taskWalk]
    split
    · split
      · rename_i w hw
        split
        · refine ⟨fun e v hv => ⟨w, List.mem_of_find?_eq_some hw, ?_⟩, by simp⟩
          simp only [List.mem_cons, Task.arrive.injEq, reduceCtorEq, List.not_mem_nil, or_false] at hv
          exact hv.1.symm
        · simp
      · simp
    · simp
  | settle u => simp [runTask]
  | arrive d v => rcases taskArrive_more d v s with h | h <;> simp [runTask, h]
  | joinWalk d us =>
    cases us with
    | nil => simp [runTask, taskJoinWalk]
    | cons u us => simp only [runTask, taskJoinWalk]; split <;> simp
  | startCheck d =>
    have h : ∀ (b : Prop) [Decidable b] (u : UnitId), (if b then [Task.ready u] else []) = [] ∨
        (if b then [Task.ready u] else []) = [Task.ready u] := by
      intro b _ u; split <;> simp
    simp only [runTask, taskStartCheck]
    split
    · split
      · simp
      · split
        · rename_i u _
          dsimp only
          rcases h ((driveStart u true (s.modUnit u UnitRun.start)).input
            ((driveStart u true (s.modUnit u UnitRun.start)).unitCfg u).running = some true) u with h | h <;>
            rw [h] <;> simp
        · simp
    · simp
  | ready u => simp [runTask]
  | faultEvent u => simp [runTask]

theorem driveStart_outputsKept (es : List ElemId) {us : List UnitId} {u : UnitId} (hu : u ∈ us) (b : Bool) (s : State) :
    OutputsKept es us s (driveStart u b s) := by
  refine drive_outputsKept b fun w hw => ?_
  unfold State.outputsOf
  exact List.mem_append_right _ (List.mem_filterMap.2 ⟨u, hu, hw⟩)

/-- What one task writes: the outputs of the element granted, and at a start check the start output of a unit (R17, R44, R80,
R88). -/
theorem runTask_outputs (es : List ElemId) (us : List UnitId) (t : Task) (s : State)
    (ha : ∀ e u, t = .arrive e u → e ∈ es) (hc : ∀ e, t = .startCheck e → us = units) :
    OutputsKept es us s (runTask t s).1 := by
  cases t with
  | release d =>
    simp only [runTask, taskRelease]
    split
    · exact OutputsKept.of_flc es us rfl
    · split
      · exact OutputsKept.of_flc es us rfl
      · exact OutputsKept.refl es us s
  | walk u =>
    simp only [runTask, taskWalk]
    split
    · split
      · split
        · exact OutputsKept.of_flc es us rfl
        · exact OutputsKept.refl es us s
      · exact OutputsKept.refl es us s
    · exact OutputsKept.refl es us s
  | settle u => exact OutputsKept.of_flc es us rfl
  | arrive d u => exact (taskArrive_atElem d u s).outputs.mono (by simpa using ha d u rfl) (by simp)
  | joinWalk d vs => rw [runTask, taskJoinWalk_state]; exact OutputsKept.refl es us s
  | startCheck d =>
    have hu := hc d rfl
    simp only [runTask, taskStartCheck]
    split
    · split
      · exact OutputsKept.refl es us s
      · split
        · rename_i u _
          have hm : u ∈ us := by rw [hu]; exact List.mem_finRange u
          exact OutputsKept.trans (b := s.modUnit u UnitRun.start) rfl (OutputsKept.of_flc es us rfl)
            (driveStart_outputsKept es hm true _)
        · exact OutputsKept.refl es us s
    · exact OutputsKept.refl es us s
  | ready u => exact OutputsKept.of_flc es us rfl
  | faultEvent u => exact OutputsKept.of_flc es us (raise_reported s .puFault _ _).flc

theorem runTasks_outputs (es : List ElemId) (us : List UnitId) (n : Nat) (ts : List Task) (s : State)
    (hq : ∀ w ∈ s.dpm.queue, w.elem ∈ es) (ha : ∀ e u, .arrive e u ∈ ts → e ∈ es)
    (hc : ∀ e, .startCheck e ∈ ts → us = units) : OutputsKept es us s (runTasks n ts s) := by
  induction n generalizing ts s with
  | zero => exact OutputsKept.refl es us s
  | succ n ih =>
    cases ts with
    | nil => exact OutputsKept.refl es us s
    | cons t ts =>
      have h := runTask_outputs es us t s (fun e u h => ha e u (by rw [h]; simp)) fun e h => hc e (by rw [h]; simp)
      refine h.trans (runTask_ran t s).cfg (ih _ _ (fun w hw => hq w (runTask_queue t s w hw)) (fun e u h => ?_)
        fun e h => ?_)
      · rcases List.mem_append.1 h with h | h
        · obtain ⟨w, hw, he⟩ := (runTask_more t s).1 e u h
          rw [← he]
          exact hq w hw
        · exact ha e u (List.mem_cons_of_mem _ h)
      · rcases List.mem_append.1 h with h | h
        · exact absurd h ((runTask_more t s).2 e)
        · exact hc e (List.mem_cons_of_mem _ h)

/-- The tasks of one hand-over write the outputs of waiters and of elements granted by the tasks themselves, and start
outputs where there is a start check among them (R17, R44, R80, R88). -/
theorem dpm_outputs (es : List ElemId) (us : List UnitId) (ts : List Task) (s : State)
    (hq : ∀ w ∈ s.dpm.queue, w.elem ∈ es) (ha : ∀ e u, .arrive e u ∈ ts → e ∈ es)
    (hc : ∀ e, .startCheck e ∈ ts → us = units) : OutputsKept es us s (dpm ts s) := runTasks_outputs es us _ ts s hq ha hc

/-! ### The number of steps -/

/-- More steps than a task alone can bring about, a grant apart, which takes an entry from the queue (log 23). -/
def Task.cost : Task → Nat
  | .release _ => 6
  | .walk _ => 1
  | .settle _ => 1
  | .arrive _ _ => 7
  | .joinWalk _ us => 1 + 2 * us.length
  | .startCheck _ => 4
  | .ready _ => 3
  | .faultEvent _ => 1

/-- More steps than these tasks take in this state: each waiter can be granted once (log 23). -/
def work (ts : List Task) (s : State) : Nat := 8 * s.dpm.queue.length + (ts.map Task.cost).sum

theorem leaveQueue_length_le (e : ElemId) (s : State) : (leaveQueue e s).dpm.queue.length ≤ s.dpm.queue.length :=
  List.length_filter_le _ _

/-- A waiter that leaves makes the queue shorter. -/
theorem leaveQueue_length_lt {w : Waiter} {s : State} (h : w ∈ s.dpm.queue) :
    (leaveQueue w.elem s).dpm.queue.length < s.dpm.queue.length := by
  unfold leaveQueue State.setQueue
  rw [← not_le]
  intro hl
  have := List.length_filter_eq_length_iff.1 (le_antisymm (List.length_filter_le _ _) hl) w h
  simp at this

theorem sum_costs_append (a b : List Task) :
    ((a ++ b).map Task.cost).sum = (a.map Task.cost).sum + (b.map Task.cost).sum := by
  rw [List.map_append, List.sum_append]

/-- Walks cost one each. -/
theorem sum_costs_walks (us : List UnitId) : ((us.map Task.walk).map Task.cost).sum = us.length := by
  induction us with
  | nil => rfl
  | cons u us ih => simp [Task.cost] at ih ⊢; omega

theorem releaseEnded_cost (e : ElemId) (s : State) : ((releaseEnded e s).map Task.cost).sum ≤ 6 := by
  unfold releaseEnded
  split <;> simp [Task.cost]

theorem taskArrive_cost (e : ElemId) (u : UnitId) (s : State) :
    ((taskArrive e u s).2.map Task.cost).sum ≤ 6 := by
  unfold taskArrive
  split
  · exact releaseEnded_cost e _
  · split
    · exact releaseEnded_cost e _
    · simp [Task.cost]
  · simp [Task.cost]

/-- Every task leaves less work than it found. -/
theorem runTask_work (t : Task) (s : State) : work (runTask t s).2 (runTask t s).1 < work [t] s := by
  unfold work
  cases t with
  | release e =>
    simp only [runTask, taskRelease]
    split
    · simp [Task.cost, State.modUnit]
    · split
      · rename_i w _
        have h := leaveQueue_length_le e s
        have hl : (units.filter fun u => s.candidate w.path u && (s.unit u).open).length ≤ 4 :=
          (List.length_filter_le _ _).trans (by simp [units])
        simp only [sum_costs_walks, List.map_cons, List.map_nil, List.sum_cons, List.sum_nil, Task.cost]
        refine lt_of_le_of_lt (Nat.add_le_add (Nat.mul_le_mul_left 8 h) hl) ?_
        omega
      · simp [Task.cost]
  | walk u =>
    simp only [runTask, taskWalk]
    split
    · split
      · rename_i w hw
        split
        · have h := leaveQueue_length_lt (s := s.modUnit u (UnitRun.grant w.holder)) (List.mem_of_find?_eq_some hw)
          change (grantSlot u w.holder s).dpm.queue.length < s.dpm.queue.length at h
          simp only [List.map_cons, List.map_nil, List.sum_cons, List.sum_nil, Task.cost]
          omega
        · simp [Task.cost]
      · simp [Task.cost]
    · simp [Task.cost]
  | settle u => simp [runTask, Task.cost, State.modUnit]
  | arrive e u =>
    have h := taskArrive_cost e u s
    simp only [runTask]
    rw [(taskArrive_atElem e u s).dpm]
    simp only [List.map_cons, List.map_nil, List.sum_cons, List.sum_nil, Task.cost]
    omega
  | joinWalk e us =>
    cases us with
    | nil => simp [runTask, taskJoinWalk, Task.cost]
    | cons u us =>
      simp only [runTask, taskJoinWalk]
      (split <;> simp [Task.cost]); omega
  | startCheck e =>
    simp only [runTask, taskStartCheck]
    split
    · split
      · simp [Task.cost]
      · split
        · unfold driveStart
          rw [drive_dpm]
          have h : ∀ (b : Prop) [Decidable b] (u : UnitId),
              ((if b then [Task.ready u] else []).map Task.cost).sum ≤ 3 := by
            intro b _ u
            split <;> simp [Task.cost]
          exact Nat.add_lt_add_left (lt_of_le_of_lt (h _ _) (by simp [Task.cost])) _
        · simp [Task.cost]
    · simp [Task.cost]
  | ready u => simp [runTask, Task.cost, State.modUnit]
  | faultEvent u =>
    simp only [runTask]
    rw [(raise_reported s .puFault (byteOf u.val) ((s.unit u).reason.code.setWidth 16)).dpm]
    simp [Task.cost]

/-- Tasks that have the steps for their work run to the end: what every task keeps, of the state and of the tasks still to
come, holds of the state that they leave with no task to come (log 23). -/
theorem runTasks_complete (Inv : List Task → State → Prop)
    (keeps : ∀ t ts s, Inv (t :: ts) s → Inv ((runTask t s).2 ++ ts) (runTask t s).1) (n : Nat) (ts : List Task)
    (s : State) (h : Inv ts s) (hn : work ts s ≤ n) : Inv [] (runTasks n ts s) := by
  induction n generalizing ts s with
  | zero =>
    cases ts with
    | nil => exact h
    | cons t ts =>
      have := runTask_work t s
      simp only [work, List.map_cons, List.map_nil, List.sum_cons, List.sum_nil] at this hn
      omega
  | succ n ih =>
    cases ts with
    | nil => exact h
    | cons t ts =>
      have := runTask_work t s
      refine ih _ _ (keeps t ts s h) ?_
      simp only [work, List.map_cons, List.map_nil, List.sum_cons, List.sum_nil, sum_costs_append] at this hn ⊢
      omega

/-- The tasks of one hand-over run to the end (log 23). -/
theorem dpm_complete (Inv : List Task → State → Prop)
    (keeps : ∀ t ts s, Inv (t :: ts) s → Inv ((runTask t s).2 ++ ts) (runTask t s).1) (ts : List Task) (s : State)
    (h : Inv ts s) (hn : work ts s ≤ taskBound) : Inv [] (dpm ts s) := runTasks_complete Inv keeps _ ts s h hn

end Sys2Proof.Machine
end

