-- ==== Sys2Proof/Laws/Elements.lean ====
section
/-!
SUPPORT. What the turns of a notification and the work of a request do (Machine/Elements.lean, Machine/Starts.lean,
Machine/Zones.lean): motion and calls, with no change of a hold, a port's role or link, or the configuration.
-/

namespace Sys2Proof.Machine

/-- Work within one event that changes no hold, no link, no fire state and no configuration. -/
structure Worked (s t : State) : Prop where
  time     : t.time = s.time
  cfg      : t.cfg = s.cfg
  grew     : ∀ p, PortGrew (s.port p) (t.port p)
  auth     : t.etu.auth = s.etu.auth
  hold     : ∀ e, (t.elem e).hold = (s.elem e).hold
  fits     : ∀ e, (s.elem e).opFits → (t.elem e).opFits
  alarmed  : t.etu.alarmed = s.etu.alarmed
  reports  : t.etu.reports = s.etu.reports
  slots    : SlotsInCapacity s → SlotsInCapacity t
  zones    : t.zones = s.zones
  kept     : CscKept s.csc t.csc
  masks    : t.rpu.masks = s.rpu.masks
  events   : s.rpu.events.length ≤ eventCapacity → t.rpu.events.length ≤ eventCapacity
  nodes    : ∀ n, NodeKept (s.node n) (t.node n)
  exchange : t.flc.exchange = s.flc.exchange
  served   : t.flc.served = s.flc.served
  driving  : t.flc.driving = s.flc.driving
  ftxd     : t.flc.ftxd = s.flc.ftxd
  pending  : t.pending = s.pending

theorem Worked.refl (s : State) : Worked s s :=
  ⟨rfl, rfl, fun _ => PortGrew.refl _, rfl, fun _ => rfl, fun _ => id, rfl, rfl, id, rfl, CscKept.refl _, rfl, id,
    fun _ => NodeKept.refl _, rfl, rfl, rfl, rfl, rfl⟩

theorem Worked.trans {a b c : State} (h : Worked a b) (k : Worked b c) : Worked a c :=
  ⟨k.time.trans h.time, k.cfg.trans h.cfg, fun p => (h.grew p).trans (k.grew p), k.auth.trans h.auth,
    fun e => (k.hold e).trans (h.hold e), fun e x => k.fits e (h.fits e x), k.alarmed.trans h.alarmed,
    k.reports.trans h.reports, fun x => k.slots (h.slots x), k.zones.trans h.zones, h.kept.trans k.kept,
    k.masks.trans h.masks, fun x => k.events (h.events x), fun n => (h.nodes n).trans (k.nodes n),
    k.exchange.trans h.exchange, k.served.trans h.served, k.driving.trans h.driving, k.ftxd.trans h.ftxd, k.pending.trans h.pending⟩

theorem foldl_worked {α : Type} (f : State → α → State) (hf : ∀ s a, Worked s (f s a)) (l : List α) (s : State) :
    Worked s (l.foldl f s) := by
  induction l generalizing s with
  | nil => exact Worked.refl s
  | cons a l ih => exact (hf s a).trans (ih _)

section
variable {s t : State}

theorem Motion.toWorked (h : Motion s t) (hs : SlotsInCapacity s → SlotsInCapacity t) : Worked s t :=
  ⟨h.time, h.cfg, h.grew, h.auth, fun e => (h.elems e).hold, h.fits, h.alarmed, h.reports, hs, h.zones,
    by rw [h.csc]; exact CscKept.refl _, h.masks, h.events, h.nodes, h.exchange, h.served, h.driving, h.ftxd, h.pending⟩

theorem AtElem.toWorked {e : ElemId} (h : AtElem e s t) : Worked s t := h.toMotion.toWorked (slots_of_units h.unit)

theorem Ran.toWorked (h : Ran s t) : Worked s t := h.toMotion.toWorked h.slots

theorem Called.toWorked (h : Called s t) : Worked s t :=
  ⟨h.time, h.cfg, h.grew, by rw [h.etu], fun e => by rw [h.elem e], fun e => by rw [h.elem e]; exact id,
    by rw [h.etu], by rw [h.etu], slots_of_units h.unit, h.zones, h.kept, h.masks, h.events,
    fun n => by rw [h.node n]; exact NodeKept.refl _, by rw [h.flc], by rw [h.flc], by rw [h.flc], by rw [h.flc],
    h.pending⟩

theorem Worked.elemCfg (h : Worked s t) (e : ElemId) : t.elemCfg e = s.elemCfg e := by
  unfold State.elemCfg; rw [h.cfg]
theorem Worked.role (h : Worked s t) (p : Port) : t.role p = s.role p := (h.grew p).kept.role
end

theorem endAndRelease_worked (e : ElemId) (code : Completion) (s : State) : Worked s (endAndRelease e code s) :=
  (endOp_atElem e code s).toWorked.trans (dpm_ran _ _).toWorked

theorem faultUnit_worked (u : UnitId) (reason : FaultReason) (s : State) : Worked s (faultUnit u reason s) :=
  (faultUnit_motion u reason s).toWorked (faultUnit_slots u reason s)

theorem dpmNotify_worked (n : NodeId) (was : Option Word16) (lost : Bool) (s : State) :
    Worked s (dpmNotify n was lost s) :=
  foldl_worked _ (fun s u => (notifyUnit_motion n was lost s u).toWorked (notifyUnit_slots n was lost s u)) _ s

/-! ### A notification at the Element Table Unit (R7) -/

theorem decodeAll_elem (n : NodeId) (was : Option Word16) (s : State) (e : ElemId) :
    (decodeAll n was s).elem e =
      match s.elemCfg e with
      | some c => if s.touched n was c then s.decoded c (s.elem e) else s.elem e
      | none => s.elem e := by
  unfold State.elem
  simp only [decodeAll]
  rw [Fin.getElem_fin, Vector.getElem_ofFn]
  rfl

theorem decodeAll_worked (n : NodeId) (was : Option Word16) (s : State) : Worked s (decodeAll n was s) := by
  have h : ∀ e, ((decodeAll n was s).elem e).hold = (s.elem e).hold ∧
      ((s.elem e).opFits → ((decodeAll n was s).elem e).opFits) := by
    intro e
    rw [decodeAll_elem]
    split
    · split
      · exact ⟨rfl, id⟩
      · exact ⟨rfl, id⟩
    · exact ⟨rfl, id⟩
  have hu : ∀ u, (decodeAll n was s).unit u = s.unit u := fun u => by simp only [State.unit, decodeAll]
  have hp : ∀ p, (decodeAll n was s).port p = s.port p := fun p => by simp only [State.port, decodeAll]
  have hn : ∀ m, (decodeAll n was s).node m = s.node m := fun m => by simp only [State.node, decodeAll]
  refine ⟨?_, ?_, fun p => by rw [hp p]; exact PortGrew.refl _, ?_, fun e => (h e).1, fun e => (h e).2, ?_, ?_,
    slots_of_units hu, ?_, ?_, ?_, ?_, fun m => by rw [hn m]; exact NodeKept.refl _, ?_, ?_, ?_, ?_, ?_⟩ <;>
    (unfold decodeAll; first | exact rfl | exact CscKept.refl _ | exact id)

theorem alert_kept (reason : AlertReason) (r : ElemRun) :
    ElemKept r (r.alert reason) ∧ (r.opFits → (r.alert reason).opFits) := by
  unfold ElemRun.alert
  split
  · exact ⟨ElemKept.refl r, id⟩
  · exact ⟨rfl, id⟩

theorem turnAlert_atElem (ch : Change) (s : State) : AtElem ch.elem s (turnAlert ch s) := by
  unfold turnAlert
  dsimp only
  split
  · exact modElem_atElem ch.elem s _ (alert_kept _ _).1 (alert_kept _ _).2
  · exact AtElem.refl _ s

theorem turnOperation_worked (ch : Change) (s : State) : Worked s (turnOperation ch s) := by
  unfold turnOperation
  dsimp only
  split
  · exact Worked.refl s
  · split
    · split
      · exact endAndRelease_worked _ _ s
      · split
        · exact endAndRelease_worked _ _ s
        · split
          · split
            · exact endAndRelease_worked _ _ s
            · split
              · exact (settleStage_atElem _ _ s).toWorked.trans (handRelease_ran _ _).toWorked
              · split
                · exact (settleStage_atElem _ _ s).toWorked.trans (handRelease_ran _ _).toWorked
                · exact Worked.refl s
          · exact Worked.refl s
    · exact Worked.refl s

theorem dependentTest_worked (pre : ElemId) (s : State) (d : ElemId) : Worked s (dependentTest pre s d) := by
  unfold dependentTest
  split
  · split
    · exact endAndRelease_worked _ _ s
    · exact (suspend_atElem _ _ s).toWorked
  · exact Worked.refl s

theorem turnDependents_worked (ch : Change) (s : State) : Worked s (turnDependents ch s) := by
  unfold turnDependents
  split
  · exact foldl_worked _ (dependentTest_worked ch.elem) _ s
  · exact Worked.refl s

theorem leavesClosed_atElem (ch : Change) (s : State) : AtElem ch.elem s (leavesClosed ch s) := by
  unfold leavesClosed
  dsimp only
  split
  · refine (setOwed_atElem ch.elem true s).trans ?_
    split
    · exact closureTest_atElem _ _ _
    · split
      · exact doorUnavailable_atElem _ _ _
      · exact AtElem.refl _ _
  · exact AtElem.refl _ s

theorem turnClosure_atElem (ch : Change) (s : State) : AtElem ch.elem s (turnClosure ch s) := by
  unfold turnClosure
  split
  · split
    · exact setOwed_atElem _ _ s
    · split
      · exact leavesClosed_atElem ch s
      · split
        · exact closureTest_atElem _ _ s
        · exact AtElem.refl _ s
  · exact AtElem.refl _ s

theorem turnNotice_called (ch : Change) (s : State) : Called s (turnNotice ch s) := by
  unfold turnNotice
  split
  · exact positionEntry_called _ _ _ s
  · exact Called.refl s

/-- One element's turn is motion and calls (R7). -/
theorem turn_worked (s : State) (ch : Change) : Worked s (turn s ch) :=
  ((((turnAlert_atElem ch s).trans (turnClosure_atElem ch _)).toWorked.trans (turnOperation_worked ch _)).trans
    (turnDependents_worked ch _)).trans (turnNotice_called ch _).toWorked

/-- A notification at the Element Table Unit is motion and calls (R7). -/
theorem etuNotify_worked (n : NodeId) (was : Option Word16) (s : State) : Worked s (etuNotify n was s) :=
  (decodeAll_worked n was s).trans (foldl_worked _ turn_worked _ _)

/-! ### Operations that requests and timers begin and end -/

theorem beginOp_atElem (e : ElemId) (replaced : Bool) (a : Activity) (ha : a ≠ .idle) (o : OpRec) (s : State) :
    AtElem e s (beginOp e replaced a o s) := by
  refine modElem_atElem e s _ ?_ fun _ => by simp [ElemRun.opFits, ha]
  unfold ElemRun.makeRoom
  split <;> exact rfl

theorem stageTimer_worked (e : ElemId) (s : State) : Worked s (stageTimer e s) := by
  unfold stageTimer
  split
  · split
    · split
      · exact (advance_atElem e s).toWorked.trans (handRelease_ran e _).toWorked
      · exact Worked.refl s
    · exact Worked.refl s
  · exact Worked.refl s

theorem stageLimitReached_worked (e : ElemId) (s : State) : Worked s (stageLimitReached e s) := by
  unfold stageLimitReached
  split
  · split
    · split
      · exact endAndRelease_worked e _ s
      · exact Worked.refl s
    · exact Worked.refl s
  · exact Worked.refl s

theorem windowExpires_atElem (e : ElemId) (s : State) : AtElem e s (windowExpires e s) := by
  unfold windowExpires
  split
  · split
    · exact suspend_atElem e _ s
    · exact AtElem.refl e s
  · exact AtElem.refl e s

theorem suspensionExpires_worked (e : ElemId) (s : State) : Worked s (suspensionExpires e s) := by
  unfold suspensionExpires
  split
  · split
    · exact endAndRelease_worked e _ s
    · exact Worked.refl s
  · exact Worked.refl s

theorem resumeOn_worked (e : ElemId) (s : State) : Worked s (resumeOn e s).1 := by
  unfold resumeOn
  split
  · split
    · split
      · exact Worked.refl s
      · exact ((modOp_atElem e s _).toWorked.trans (returnToActive_atElem e _).toWorked).trans
          (handRelease_ran e _).toWorked
    · exact Worked.refl s
  · exact Worked.refl s

theorem consentOne_worked (p : Port) (b : Byte) (s : State) : Worked s (consentOne p b s).1 := by
  unfold consentOne
  split
  · exact Worked.refl s
  · split
    · split
      · exact (modOp_atElem _ s _).toWorked
      · exact Worked.refl s
    · split
      · split
        · exact ((modOp_atElem _ s _).toWorked.trans (returnToActive_atElem _ _).toWorked).trans
            (handRelease_ran _ _).toWorked
        · exact (modOp_atElem _ s _).toWorked
      · exact Worked.refl s
    · exact Worked.refl s

theorem consentAll_worked (p : Port) (bs : List Byte) (s : State) : Worked s (consentAll p bs s).1 := by
  induction bs generalizing s with
  | nil => exact Worked.refl s
  | cons b bs ih => exact (consentOne_worked p b s).trans (ih _)

theorem clear_kept (r : ElemRun) : ElemKept r r.clear ∧ r.clear.opFits := by
  refine ⟨rfl, ?_⟩
  simp [ElemRun.opFits, ElemRun.clear]

theorem applyClear_worked (e : ElemId) (c : ElementCfg) (s : State) : Worked s (applyClear e c s) := by
  unfold applyClear
  dsimp only
  have h : Worked s (dpm [.release e] (writeOutputs e (s.modElem e ElemRun.clear))) :=
    ((modElem_atElem e s _ (clear_kept _).1 fun _ => (clear_kept _).2).trans (writeOutputs_atElem e _)).toWorked.trans
      (dpm_ran _ _).toWorked
  refine h.trans ?_
  split
  · exact ((setOwed_atElem e false _).trans (closureTest_atElem e c _)).toWorked
  · exact (closureTest_atElem e c _).toWorked

theorem stopAll_worked (es : List ElemId) (s : State) :
    Worked s (batchRelease es (es.foldl (fun s e => endOp e .halted s) s)) :=
  (foldl_worked _ (fun s e => (endOp_atElem e .halted s).toWorked) es s).trans (batchRelease_ran es _).toWorked

/-- An accepted START: a new operation, begun or ended or waiting for a slot (R25, R26). -/
theorem applyStart_worked (p : Port) (e : ElemId) (c : ElementCfg) (k : OpKind) (f : StartFields) (s : State) :
    Worked s (applyStart p e c k f s).1 := by
  unfold applyStart
  dsimp only
  generalize s.overtakes p e k = replaced
  generalize OpRec.started p k f (s.startMark c k) = o
  have h : AtElem e s (if replaced = true then endRecord e .overtaken s else s) := by
    split
    · exact endRecord_atElem e _ s
    · exact AtElem.refl e s
  generalize (if replaced = true then endRecord e .overtaken s else s) = u at h ⊢
  refine h.toWorked.trans ?_
  split
  · exact ((beginOp_atElem e replaced .active (by decide) o u).trans (endOp_atElem e .done _)).toWorked
  · split
    · exact (beginOp_atElem e replaced .startPending (by decide) _ u).toWorked.trans (slotRequest_ran _ _).toWorked
    · exact (((beginOp_atElem e replaced .active (by decide) o u).trans (enterStage_atElem e c _ _)).trans
        (settleStage_atElem _ e _)).toWorked

/-! ### Fire zones at the doors -/

theorem oweUnlessClosed_atElem (e : ElemId) (s : State) : AtElem e s (oweUnlessClosed e s) := by
  unfold oweUnlessClosed
  split
  · exact AtElem.refl e s
  · exact setOwed_atElem e true s

theorem alarmDoor_atElem (e : ElemId) (c : ElementCfg) (s : State) : AtElem e s (alarmDoor e c s) := by
  unfold alarmDoor
  dsimp only
  split
  · split
    · exact AtElem.refl e s
    · refine (setOwed_atElem e true s).trans ?_
      split
      · exact doorUnavailable_atElem e c _
      · exact AtElem.refl e _
  · split
    · refine (oweUnlessClosed_atElem e s).trans ?_
      split
      · exact endOp_atElem e _ _
      · split
        · exact AtElem.refl e _
        · exact (modOp_atElem e _ _).trans (returnToActive_atElem e _)
      · exact AtElem.refl e _
    · exact (oweUnlessClosed_atElem e s).trans (closureTest_atElem e c _)

theorem normalDoor_atElem (e : ElemId) (c : ElementCfg) (s : State) : AtElem e s (normalDoor e c s) := by
  unfold normalDoor
  split
  · exact AtElem.refl e s
  · dsimp only
    refine (setOwed_atElem e false s).trans ?_
    split
    · exact (modOp_atElem e _ _).trans (interlockTest_atElem e _)
    · exact AtElem.refl e _

/-- The alarm notice at the Element Table Unit: the zone joins the alarmed set, and doors move (R105, R110). -/
theorem etuAlarm_worked (z : ZoneId) (s : State) :
    Worked (s.setAlarmed (s.etu.alarmed ||| zoneBit z)) (etuAlarm z s) :=
  foldl_worked _ (fun s (d : ElemId × ElementCfg) => (alarmDoor_atElem d.1 d.2 s).toWorked) _ _

/-- The normal notice: the zone leaves the alarmed set, and doors are freed (R105, R117). -/
theorem etuNormal_worked (z : ZoneId) (s : State) :
    Worked (s.setAlarmed (s.etu.alarmed &&& ~~~zoneBit z)) (etuNormal z s) :=
  foldl_worked _ (fun s (d : ElemId × ElementCfg) => (normalDoor_atElem d.1 d.2 s).toWorked) _ _

end Sys2Proof.Machine
end

