-- ==== Sys2Proof/Laws/Field.lean ====
section
/-!
SUPPORT. The field line (R181, R184): what an exchange's start leaves, when an answer is awaited, and that an answer or a miss
leaves the driver, the node last served and the characters of the OUT alone.
-/

namespace Sys2Proof.Machine

/-! ### The driver -/

/-- An OUT from its first character to its closing FLAG leaves the driver off and its answer awaited (R181, R184). -/
theorem finishOut_startOut (n : NodeId) (s : State) :
    finishOut n (startOut n s) = { s with flc := { s.flc with
      exchange := some n, served := some n, driving := false
      ftxd := fieldChars (s.address n) kindOut (s.node n).outputs } } := rfl

theorem awaited_of_off {s : State} (h : s.flc.driving = false) : s.awaited = s.flc.exchange := by
  unfold State.awaited; rw [h]; rfl

theorem awaited_of_on {s : State} (h : s.flc.driving = true) : s.awaited = none := by
  unfold State.awaited; rw [h]; rfl

/-! ### What an answer or a miss leaves of the line -/

/-- The exchange, the node last served, the driver and the characters of the OUT are as they were. -/
structure LineKept (s t : State) : Prop where
  exchange : t.flc.exchange = s.flc.exchange
  served   : t.flc.served = s.flc.served
  driving  : t.flc.driving = s.flc.driving
  ftxd     : t.flc.ftxd = s.flc.ftxd

theorem LineKept.refl (s : State) : LineKept s s := ⟨rfl, rfl, rfl, rfl⟩

theorem LineKept.trans {a b c : State} (h : LineKept a b) (k : LineKept b c) : LineKept a c :=
  ⟨k.exchange.trans h.exchange, k.served.trans h.served, k.driving.trans h.driving, k.ftxd.trans h.ftxd⟩

theorem LineKept.of_flc {s t : State} (h : t.flc = s.flc) : LineKept s t := by
  constructor <;> rw [h]

theorem Worked.lineKept {s t : State} (h : Worked s t) : LineKept s t := ⟨h.exchange, h.served, h.driving, h.ftxd⟩

theorem modNode_lineKept (s : State) (n : NodeId) (f : NodeRun → NodeRun) : LineKept s (s.modNode n f) :=
  ⟨rfl, rfl, rfl, rfl⟩

theorem raise_lineKept (s : State) (k : EventKind) (source : Byte) (detail : Word16) :
    LineKept s (s.raise k source detail) := .of_flc (raise_reported s k source detail).flc

theorem finishReports_lineKept (s0 s : State) : LineKept s (finishReports s0 s) :=
  .of_flc (finishReports_reported s0 s).flc

theorem notify_lineKept (order : BlockOrder) (n : NodeId) (was : Option Word16) (lost : Bool) (s : State) :
    LineKept s (notify order n was lost s) := by
  have etu (u : State) : LineKept u (finishReports u (etuNotify n was u)) :=
    (etuNotify_worked n was u).lineKept.trans (finishReports_lineKept u _)
  have dpm (u : State) : LineKept u (finishReports u (dpmNotify n was lost u)) :=
    (dpmNotify_worked n was lost u).lineKept.trans (finishReports_lineKept u _)
  unfold notify
  cases order
  · exact (etu s).trans (dpm _)
  · exact (dpm s).trans (etu _)

theorem fieldAnswer_lineKept (order : BlockOrder) (n : NodeId) (bits : Word16) (s : State) :
    LineKept s (fieldAnswer order n bits s) := by
  unfold fieldAnswer
  dsimp only
  have up : LineKept s (s.modNode n fun r => { r with state := .online, misses := 0, inputs := some bits }) :=
    modNode_lineKept s n _
  split <;> split
  · exact up.trans (raise_lineKept _ _ _ _)
  · exact up
  · exact (up.trans (raise_lineKept _ _ _ _)).trans (notify_lineKept _ _ _ _ _)
  · exact up.trans (notify_lineKept _ _ _ _ _)

theorem nodeLost_lineKept (order : BlockOrder) (n : NodeId) (s : State) : LineKept s (nodeLost order n s) := by
  unfold nodeLost
  exact (((modNode_lineKept s n _).trans (raise_lineKept _ _ _ _)).trans (modNode_lineKept _ n _)).trans
    (notify_lineKept _ _ _ _ _)

theorem fieldMiss_lineKept (order : BlockOrder) (n : NodeId) (s : State) : LineKept s (fieldMiss order n s) := by
  unfold fieldMiss
  split
  · split
    · exact modNode_lineKept s n _
    · exact nodeLost_lineKept order n s
  · exact LineKept.refl s

end Sys2Proof.Machine
end

