-- ==== Sys2Proof/Laws/Holds.lean ====
section
/-!
SUPPORT. What the operations on holds leave at each element and at each port's authority record (R67 to R75).
-/

namespace Sys2Proof.Machine

/-- A port's orphan set is empty exactly when no element is orphaned by it (R72). -/
theorem orphans_nil (s : State) (p : Port) : s.orphans p = [] ↔ ∀ e, (s.elem e).hold ≠ .orphaned p := by
  unfold State.orphans
  simp [List.filter_eq_nil_iff]

/-! ### One hold -/

theorem emptiedOrphans_auth (p q : Port) (s : State) :
    (emptiedOrphans p s).auth q =
      if q = p ∧ s.orphans p = [] then { s.auth q with orphan := none } else s.auth q := by
  unfold emptiedOrphans
  split
  · next h => rw [modAuth_auth]; simp [h]
  · next h => simp [h]

theorem emptiedOrphans_elem (p : Port) (s : State) (e : ElemId) : (emptiedOrphans p s).elem e = s.elem e := by
  unfold emptiedOrphans
  split <;> rfl

/-- Setting a hold changes that element's hold alone. -/
theorem setHold_elem (e d : ElemId) (h : Hold) (s : State) :
    (setHold e h s).elem d = if d = e then { s.elem d with hold := h } else s.elem d := by
  unfold setHold
  dsimp only
  split
  · rw [emptiedOrphans_elem, modElem_elem]
  · rw [modElem_elem]

/-- An element that leaves a port's orphan set as its last stops that port's orphan timer (R74). -/
theorem setHold_auth (e : ElemId) (h : Hold) (hno : ∀ q, h ≠ .orphaned q) (s : State) (r : Port) :
    (setHold e h s).auth r =
      if (s.elem e).hold = .orphaned r ∧ ∀ d, d ≠ e → (s.elem d).hold ≠ .orphaned r then
        { s.auth r with orphan := none }
      else s.auth r := by
  unfold setHold
  dsimp only
  split
  · next q hq =>
    rw [emptiedOrphans_auth]
    have key : (s.modElem e fun r => { r with hold := h }).orphans q = [] ↔
        ∀ d, d ≠ e → (s.elem d).hold ≠ .orphaned q := by
      rw [orphans_nil]
      refine ⟨fun k d hd => ?_, fun k d => ?_⟩
      · have := k d
        rw [modElem_elem, if_neg hd] at this
        exact this
      · rw [modElem_elem]
        split
        · exact hno q
        · next hd => exact k d hd
    simp only [key, hq, modElem_at_auth]
    by_cases hrq : r = q
    · subst hrq
      simp
    · have : Hold.orphaned q ≠ Hold.orphaned r := by simpa using fun h => hrq h.symm
      simp [hrq, this]
  · next hq =>
    rw [modElem_at_auth, if_neg]
    intro k
    exact hq r k.1

/-- Beside the hold and the orphan timers nothing changes. -/
theorem setHold_else (e : ElemId) (h : Hold) (s : State) :
    (setHold e h s).time = s.time ∧ (setHold e h s).cfg = s.cfg ∧ (setHold e h s).ports = s.ports ∧
      (setHold e h s).etu.alarmed = s.etu.alarmed ∧ (setHold e h s).etu.reports = s.etu.reports ∧
      (setHold e h s).dpm = s.dpm ∧ (setHold e h s).zones = s.zones ∧ (setHold e h s).csc = s.csc ∧
      (setHold e h s).rpu = s.rpu ∧ (setHold e h s).flc = s.flc ∧ (setHold e h s).pending = s.pending := by
  unfold setHold emptiedOrphans
  dsimp only
  split
  · split <;> simp
  · simp

/-! ### The holds of a port -/

/-- The report that a port is UP gives back the holds still orphaned by it, while its orphan timer runs (R73). -/
theorem portUpReport_elem (p : Port) (s : State) (e : ElemId) :
    (portUpReport p s).elem e =
      { s.elem e with
        hold := if (s.elem e).hold = .orphaned p ∧ (s.auth p).orphan.isSome then .held p else (s.elem e).hold } := by
  unfold portUpReport
  dsimp only
  rw [modAuth_at_elem]
  split
  · next h =>
    rw [mapElems_elem]
    split
    · next h2 => simp [h, h2]
    · next h2 => simp [h2]
  · next h => simp [h]

theorem portUpReport_auth (p q : Port) (s : State) :
    (portUpReport p s).auth q = if q = p then { linkUp := true, orphan := none } else s.auth q := by
  unfold portUpReport
  dsimp only
  rw [modAuth_auth]
  split
  · rfl
  · split <;> simp

/-- The report that a port is LOST orphans its holds (R72). -/
theorem portLostReport_elem (p : Port) (s : State) (e : ElemId) :
    (portLostReport p s).elem e =
      { s.elem e with hold := if (s.elem e).hold = .held p then .orphaned p else (s.elem e).hold } := by
  unfold portLostReport
  dsimp only
  rw [modAuth_at_elem, mapElems_elem]
  split
  · next h => rfl
  · next h => rfl

theorem portLostReport_auth (p q : Port) (s : State) :
    (portLostReport p s).auth q =
      if q = p then
        { linkUp := false
          orphan := if ∀ e, ((portLostReport p s).elem e).hold ≠ .orphaned p then none else some tOrp }
      else s.auth q := by
  have h1 : ∀ e, (s.mapElems fun r => if r.hold = .held p then { r with hold := .orphaned p } else r).elem e =
      (portLostReport p s).elem e := by
    intro e
    unfold portLostReport
    dsimp only
    rw [modAuth_at_elem]
  have h2 : (portLostReport p s).auth q =
      if q = p then
        { linkUp := false
          orphan :=
            if (s.mapElems fun r => if r.hold = .held p then { r with hold := .orphaned p } else r).orphans p = [] then
              none
            else some tOrp }
      else s.auth q := by
    unfold portLostReport
    dsimp only
    rw [modAuth_auth]
    simp
  rw [h2]
  simp only [orphans_nil, h1]

/-- The orphan timer's expiry drops every hold still orphaned by the port (R75). -/
theorem dropOrphans_elem (p : Port) (s : State) (e : ElemId) :
    (dropOrphans p s).elem e =
      { s.elem e with hold := if (s.elem e).hold = .orphaned p then .none else (s.elem e).hold } := by
  unfold dropOrphans
  dsimp only
  rw [(raise_reported _ _ _ _).elem, modAuth_at_elem, mapElems_elem]
  split <;> rfl

theorem dropOrphans_auth (p q : Port) (s : State) :
    (dropOrphans p s).auth q = if q = p then { s.auth q with orphan := none } else s.auth q := by
  unfold dropOrphans
  dsimp only
  rw [(raise_reported _ _ _ _).auth, modAuth_auth, mapElems_at_auth]

end Sys2Proof.Machine
end

