-- ==== Sys2Proof/Laws/Requests.lean ====
section
/-!
SUPPORT. What a request row does when it is handed on: the response takes the place reserved for it, and only the owner's
work and the report of the event stand beside it (R173, R174).
-/

namespace Sys2Proof.Machine

/-- A port that may be handed a request has no place reserved (R173). -/
theorem Ready.unreserved {p : Port} {s : State} (h : Ready p s) : ∀ t ∈ (s.port p).tx, t.isReserved = false := by
  have := h.2
  unfold PortRec.canHandOn at this
  simp only [Bool.and_eq_true, decide_eq_true_eq, List.all_eq_true, Bool.not_eq_true'] at this
  exact this.1.2

theorem Ready.link {p : Port} {s : State} (h : Ready p s) : (s.port p).link = .up := by
  have := h.2
  unfold PortRec.canHandOn at this
  simp only [Bool.and_eq_true, decide_eq_true_eq] at this
  exact this.1.1

theorem Ready.room {p : Port} {s : State} (h : Ready p s) : (s.port p).tx.length < txCapacity := by
  have := h.2
  unfold PortRec.canHandOn at this
  simp only [Bool.and_eq_true, decide_eq_true_eq] at this
  exact this.2

/-- A late COLLECT changes nothing but an overrun flag beside a zone closure (R156, R158; log 36). -/
theorem ElemRun.collectLate_of_station {r : ElemRun} (h : r.closureRuns = false) : r.collectLate = r := by
  unfold ElemRun.collectLate
  rw [h]
  cases r
  simp

theorem ElemRun.collectLate_of_closure {r : ElemRun} (h : r.closureRuns = true) :
    r.collectLate = { r with overrun := false } := by
  unfold ElemRun.collectLate
  rw [h]
  simp

theorem fill_unreserved (a : Answer) (data : List Byte) (l : List TxPlace) (h : ∀ t ∈ l, t.isReserved = false) :
    l.map (fillPlace a data) = l := by
  rw [List.map_congr_left (g := id), List.map_id]
  intro t ht
  have := h t ht
  cases t <;> simp_all [fillPlace, TxPlace.isReserved]

theorem fill_attentions (a : Answer) (data : List Byte) (l : List TxPlace)
    (h : ∀ x ∈ l, ∃ c d, x = TxPlace.attention c d) : l.map (fillPlace a data) = l := by
  refine fill_unreserved a data l fun t ht => ?_
  obtain ⟨c, d, rfl⟩ := h t ht
  rfl

theorem modPort_congr {s : State} {p : Port} {f g : PortRec → PortRec} (h : f (s.port p) = g (s.port p)) :
    s.modPort p f = s.modPort p g := by
  unfold State.modPort upd
  have : f s.ports[p] = g s.ports[p] := h
  rw [this]

theorem modPort_modPort (s : State) (p : Port) (f g : PortRec → PortRec) :
    (s.modPort p f).modPort p g = s.modPort p fun r => g (f r) := by
  have : ∀ v : Vector PortRec 4, upd (upd v p f) p g = upd v p fun r => g (f r) := by
    intro v
    unfold upd
    simp
  unfold State.modPort
  simp only [this]

/-- Placing the response in the place just reserved leaves exactly that response at the tail. -/
theorem place_reserve (u : State) (p : Port) (seq code : Byte) (a : Answer) (data : List Byte)
    (h : ∀ t ∈ (u.port p).tx, t.isReserved = false) :
    (u.reserve p seq code).modPort p (PortRec.place seq (.response a data)) = answered p seq code a data u := by
  unfold State.reserve answered
  rw [modPort_modPort]
  refine modPort_congr ?_
  simp only [PortRec.place, List.map_append, fill_unreserved a data _ h]
  rfl

theorem finishReports_congr {s0 s0' : State} (h : ∀ e, s0.elem e = s0'.elem e) (s : State) :
    finishReports s0 s = finishReports s0' s := by
  have hn : notice s0 = notice s0' := by
    funext s e
    unfold notice
    rw [h e]
  unfold finishReports joinReports
  simp only [h, hn]

/-- A request row is handed on where its port is ready, and where it is not nothing happens (R173; log 1). -/
theorem request_ready {p : Port} {s : State} (h : Ready p s) (seq code : Byte) (owner : Owner) :
    request p seq code owner s = take p seq code owner s := if_pos h

theorem request_not_ready {p : Port} {s : State} (h : ¬ Ready p s) (seq code : Byte) (owner : Owner) :
    request p seq code owner s = s := if_neg h

/-- An owner whose work leaves port p's transmit FIFO alone: its response takes the place, and the reports follow. -/
theorem request_acts {p : Port} {s u : State} {owner : Owner} {seq code : Byte} {a : Answer} {data : List Byte}
    (hr : Ready p s) (ho : owner (s.reserve p seq code) = (u.reserve p seq code, .response a data))
    (hu : ∀ t ∈ (u.port p).tx, t.isReserved = false) :
    request p seq code owner s = finishReports s (answered p seq code a data u) := by
  rw [request_ready hr]
  unfold take
  simp only [ho, place_reserve u p seq code a data hu]
  exact finishReports_congr (fun _ => rfl) _

/-- An owner that answers without acting: the response joins the transmit FIFO and nothing else changes. -/
theorem request_answers {p : Port} {s : State} {owner : Owner} {seq code : Byte} {a : Answer} {data : List Byte}
    (hr : Ready p s) (ho : owner (s.reserve p seq code) = (s.reserve p seq code, .response a data)) :
    request p seq code owner s = answered p seq code a data s := by
  rw [request_acts hr ho hr.unreserved]
  exact finishReports_of_same (fun _ => rfl) (fun _ _ => rfl)

/-- An owner whose work changes no pending set and no listed element's class: response and work, nothing else. -/
theorem request_works {p : Port} {s u : State} {owner : Owner} {seq code : Byte} {a : Answer} {data : List Byte}
    (hr : Ready p s) (ho : owner (s.reserve p seq code) = (u.reserve p seq code, .response a data))
    (hp : u.port p = s.port p) (hl : ∀ e, (u.elem e).listed = (s.elem e).listed)
    (hc : ∀ e, (u.elem e).listed = true → (u.elem e).reportClass = (s.elem e).reportClass) :
    request p seq code owner s = answered p seq code a data u := by
  rw [request_acts hr ho (by rw [hp]; exact hr.unreserved)]
  exact finishReports_of_same (fun e => hl e) (fun e he => hc e he)

/-- An owner at work whose port gains only attentions: the response stands ahead of them (R173, R175). -/
theorem request_responded {p : Port} {s t : State} {owner : Owner} {seq code : Byte} {a : Answer} {data : List Byte}
    (hr : Ready p s) (ho : owner (s.reserve p seq code) = (t, .response a data))
    (hg : PortGrew ((s.reserve p seq code).port p) (t.port p)) :
    Responded p seq code a data s (request p seq code owner s) := by
  rw [request_ready hr]
  unfold take
  simp only [ho]
  obtain ⟨rest, hrest, att⟩ := hg.grows
  have hf := (finishReports_reported (s.reserve p seq code) (t.modPort p (PortRec.place seq (.response a data)))).grew p
  obtain ⟨more, hmore, att'⟩ := hf.grows
  refine ⟨rest ++ more, ?_, ?_⟩
  · rw [hmore]
    have h1 : ((relisted (s.reserve p seq code) (t.modPort p (PortRec.place seq (.response a data)))).port p).tx =
        ((t.port p).tx).map (fillPlace a data) := by
      change ((t.modPort p (PortRec.place seq (.response a data))).port p).tx = _
      rw [modPort_port, if_pos rfl]
      rfl
    have h2 : ((s.reserve p seq code).port p).tx = (s.port p).tx ++ [.reserved seq code] := by
      unfold State.reserve
      rw [modPort_port, if_pos rfl]
    rw [h1, hrest, h2, List.map_append, List.map_append, fill_unreserved a data _ hr.unreserved,
      fill_attentions a data rest att]
    simp [fillPlace]
  · intro x hx
    rcases List.mem_append.1 hx with hx | hx
    · exact att x hx
    · exact att' x hx

/-- Beside the owner's work, a request changes port records and the report list alone. -/
theorem request_else {p : Port} {s t : State} {owner : Owner} {seq code : Byte} {r : Reply}
    (hr : Ready p s) (ho : owner (s.reserve p seq code) = (t, r)) :
    Reported (relisted s (t.modPort p (PortRec.place seq r))) (request p seq code owner s) := by
  rw [request_ready hr]
  unfold take
  simp only [ho]
  rw [finishReports_congr (s0 := s.reserve p seq code) (s0' := s) fun _ => rfl]
  exact finishReports_reported _ _

end Sys2Proof.Machine
end

