-- ==== Sys2Proof/Laws/Time.lean ====
section
/-!
SUPPORT. What a tick (R197) and a reset (R195) leave at each record.
-/

namespace Sys2Proof.Machine

/-! ### A tick -/

theorem tick_port (s : State) (p : Port) : (tick s).port p = (s.port p).tick := by
  unfold tick State.port
  simp only [Fin.getElem_fin, Vector.getElem_ofFn]

theorem tick_elem (s : State) (e : ElemId) : (tick s).elem e = (s.elem e).tick := by
  unfold tick State.elem
  simp only [Fin.getElem_fin, Vector.getElem_ofFn]

theorem tick_auth (s : State) (p : Port) : (tick s).auth p = (s.auth p).tick := by
  unfold tick State.auth
  simp only [Fin.getElem_fin, Vector.getElem_ofFn]

theorem tick_unit (s : State) (u : UnitId) : (tick s).unit u = (s.unit u).tick := by
  unfold tick State.unit
  simp only [Fin.getElem_fin, Vector.getElem_ofFn]

theorem tick_zone (s : State) (z : ZoneId) : (tick s).zone z = (s.zone z).tick := by
  unfold tick State.zone
  simp only [Fin.getElem_fin, Vector.getElem_ofFn]

theorem tick_time (s : State) : (tick s).time = s.time + 1 := by unfold tick; rfl
theorem tick_cfg (s : State) : (tick s).cfg = s.cfg := by unfold tick; rfl
theorem tick_alarmed (s : State) : (tick s).etu.alarmed = s.etu.alarmed := by unfold tick; rfl
theorem tick_reports (s : State) : (tick s).etu.reports = s.etu.reports := by unfold tick; rfl
theorem tick_queue (s : State) : (tick s).dpm.queue = s.dpm.queue := by unfold tick; rfl
theorem tick_csc (s : State) :
    (tick s).csc = { s.csc with queue := s.csc.queue.map CallEntry.tick, pa := s.csc.pa.tick } := by unfold tick; rfl
theorem tick_rpu (s : State) : (tick s).rpu = s.rpu := by unfold tick; rfl
theorem tick_flc (s : State) : (tick s).flc = s.flc := by unfold tick; rfl
theorem tick_pending (s : State) : (tick s).pending = s.pending := by unfold tick; rfl

/-! ### A reset -/

section
variable (first : EventKind) (source : Byte) (st : Straps) (img : Image) (s : State)

theorem fresh_port (p : Port) : (fresh first source st img s).port p = PortRec.atReset (Straps.roleOf st p) := by
  unfold fresh State.port
  simp only [Fin.getElem_fin, Vector.getElem_ofFn]

theorem fresh_elem (e : ElemId) : (fresh first source st img s).elem e = elemAtReset img e := by
  unfold fresh State.elem
  simp only [Fin.getElem_fin, Vector.getElem_ofFn]

theorem fresh_node (n : NodeId) : (fresh first source st img s).node n = NodeRun.atReset img.nodes[n].isSome := by
  unfold fresh State.node
  simp only [Fin.getElem_fin, Vector.getElem_ofFn]

theorem fresh_mask (p : Port) : (fresh first source st img s).rpu.masks[p] = img.stations[p].mask := by
  unfold fresh
  simp only [Fin.getElem_fin, Vector.getElem_ofFn]

theorem fresh_auth (p : Port) : (fresh first source st img s).auth p = { linkUp := false, orphan := none } := by
  unfold fresh State.auth
  simp only [Fin.getElem_fin, Vector.getElem_replicate]

theorem fresh_unit (u : UnitId) : (fresh first source st img s).unit u = UnitRun.atReset := by
  unfold fresh State.unit
  simp only [Fin.getElem_fin, Vector.getElem_replicate]

theorem fresh_zone (z : ZoneId) : (fresh first source st img s).zone z = ZoneRun.atReset := by
  unfold fresh State.zone
  simp only [Fin.getElem_fin, Vector.getElem_replicate]
end

end Sys2Proof.Machine
end

