-- ==== Sys2Proof/Tests/Slice0.lean ====
section
/-!
SUPPORT. Tests of the model: the checks of WellFormed, the CRCs and frames of the manual, one step of a command here and
there, and for every statement with hypotheses a concrete state and operands that meet them (test_meets_…), each clause
with its own, on a small installation: a door E0, a locked visor E1, a ramp E2 without locks and a door E3, zones Z1 and
Z2, units PU0 and PU1 on node N1.
-/

namespace Sys2Proof.Tests

set_option Elab.async false

open Sys2Proof Sys2Proof.Machine

/-! ### The small installation -/

def chan (n : NodeId) (l : Fin 16) : Option Chan := some { node := n, line := l }

def doorCfg (boundary : ZoneSet) (l : Fin 16) : ElementCfg where
  kind := .door
  homeZone := 0
  boundary := boundary
  tLck := 0
  tTrv := 60
  tWrn := 5
  consent := false
  multipath := false
  enabled := true
  weight := 0
  installed := 0
  mask := 0
  cls := 3
  closedLimit := chan 0 l
  openLimit := chan 0 (l + 1)
  locked := none
  unlocked := none
  obstruction := chan 0 (l + 2)
  driveOpen := chan 0 l
  driveClose := chan 0 (l + 1)
  lock := none
  unlock := none
  warning := chan 0 (l + 2)

def visorCfg : ElementCfg where
  kind := .visor
  homeZone := 0
  boundary := 0
  tLck := 20
  tTrv := 60
  tWrn := 0
  consent := true
  multipath := true
  enabled := true
  weight := 2
  installed := 0b0011
  mask := 0b0011
  cls := 2
  closedLimit := chan 0 3
  openLimit := chan 0 4
  locked := chan 0 5
  unlocked := chan 0 6
  obstruction := none
  driveOpen := chan 0 3
  driveClose := chan 0 4
  lock := chan 0 5
  unlock := chan 0 6
  warning := none

def rampCfg : ElementCfg :=
  { visorCfg with
    kind := .ramp, consent := false, multipath := false, weight := 1, locked := none, unlocked := none
    closedLimit := chan 0 7, openLimit := chan 0 8, driveOpen := chan 0 7, driveClose := chan 0 8, lock := none
    unlock := none }

def noRef : RawRef := { kind := 0, arg := 0 }

def zoneOf (deck : Nat) (kind : ZoneKind) : ZoneCfg where
  deck := deck
  kind := kind
  cue := 90
  nRefs := 1
  refs := [{ kind := 6, arg := 0 }, noRef, noRef, noRef]
  repeats := 4
  interval := 30
  cls := 1

def unitOn (l : Fin 16) : UnitCfg where
  startOut := chan 1 l
  running := chan 1 l
  fault := chan 1 (l + 1)

/-- The configuration: two interlocks on E1, OPEN only with E2 OPEN (entry 0), and on the door E3 (entry 1). -/
def image : Image :=
  { Image.blank with
    stations :=
      #v[{ homeDeck := 1, mask := 0xFF }, { homeDeck := 2, mask := 0x0C }, { homeDeck := 3, mask := 0x0C },
        { homeDeck := 1, mask := 0x0A }]
    units := ((Image.blank.units).set 0 (unitOn 0)).set 1 (unitOn 2)
    nodes := ((Image.blank.nodes).set 0 (some { address := 1 })).set 1 (some { address := 2 })
    zones := ((Image.blank.zones).set 0 (some (zoneOf 2 .vehicle))).set 1 (some (zoneOf 5 .passenger))
    elements :=
      (((Image.blank.elements.set 0 (some (doorCfg 0b01 0))).set 1 (some visorCfg)).set 2 (some rampCfg)).set 3
        (some (doorCfg 0b10 9))
    interlocks :=
      ((Image.blank.interlocks).set 0
        (some { dependent := 1, opKind := .onOpen, prerequisite := 2, needOpen := true, needLock := .any })).set 1
        (some { dependent := 3, opKind := .onAny, prerequisite := 2, needOpen := true, needLock := .any }) }

def upPort (r : Role) : PortRec := { PortRec.atReset r with link := .up, silence := some 200 }

/-- An element at rest in a position and a lock state. -/
def atRest (c : ElementCfg) (p : Position) (l : LockState) : ElemRun :=
  { ElemRun.empty with
    enabled := true, mask := c.mask, cls := c.cls, multipath := c.multipath, position := p, lock := l, posSeen := true }

/-- RUN with every port UP, both nodes ONLINE, the units OFF, and everything at rest: the doors CLOSED, the visor CLOSED
and LOCKED, the ramp OPEN. -/
def run : State :=
  { State.reset with
    cfg := { image := image, valid := true, startUp := .run, committing := none, loaded := image }
    ports := #v[upPort .bridge, upPort .deck, upPort .deck, upPort .safety]
    etu :=
      { elems :=
          (((State.reset.etu.elems.set 0 (atRest (doorCfg 0b01 0) .closed .none)).set 1
            (atRest visorCfg .closed .locked)).set 2 (atRest rampCfg .opened .none)).set 3
            (atRest (doorCfg 0b10 9) .closed .none)
        auth := Vector.replicate 4 { linkUp := true, orphan := none }
        alarmed := 0
        reports := [] }
    flc :=
      { State.reset.flc with
        nodes :=
          (State.reset.flc.nodes.set 0 { state := .online, misses := 0, inputs := some 0x0329, outputs := 0 }).set 1
            { state := .online, misses := 0, inputs := some 0, outputs := 0 } } }

def service : State := { run with cfg := { run.cfg with startUp := .service } }
def unconfigured : State := { run with cfg := { run.cfg with startUp := .unconfigured } }

/-- An element held by a port. -/
def heldBy (e : ElemId) (p : Port) (s : State) : State := s.modElem e fun r => { r with hold := .held p }

def at' (e : ElemId) (p : Position) (l : LockState) (s : State) : State :=
  s.modElem e fun r => { r with position := p, lock := l }

def noReasons : Reasons := { consent := false, interlock := false, path := false }

/-- An operation of port 0 in a stage. -/
def opIn (k : OpKind) (st : Stage) : OpRec where
  kind := k
  requester := some 0
  tag := 7
  cls := 2
  stageReport := false
  stage := st
  reasons := noReasons
  attempts := 0
  motion := 0
  stageTime := 0
  slot := none
  code := .none
  mark := false
  window := none
  suspTimer := none

/-- An element with an operation. -/
def busyWith (e : ElemId) (a : Activity) (o : OpRec) (s : State) : State :=
  s.modElem e fun r => { r with activity := a, op := some o }

/-- A zone in ALARM, in RUN: in both sets. -/
def alarmed (z : ZoneId) (s : State) : State :=
  { (s.modZone z fun _ => { fire := .alarm, alarmTime := 0, reporter := some 3, confirm := some 0 }) with
    etu := { s.etu with alarmed := s.etu.alarmed ||| zoneBit z }
    csc := { s.csc with muted := s.csc.muted ||| zoneBit z } }

def sayStation (p : Port) (seq code : Byte) (payload : List Byte) : List LineChar :=
  (escapeStation (frameBytes (byteOf p.val) 0x01 seq code payload)).map .byte

def sayField (address : Byte) (bits : Word16) : List LineChar :=
  (escapeField (fieldBytes address 0x02 bits)).map .byte

/-- The next state of a command, and the state itself where there is none. -/
def after (c : Instr) (s : State) : State :=
  match exec c s with
  | .next t => t
  | _ => s

/-- A port changed. -/
def withPort (p : Port) (f : PortRec → PortRec) : State := run.modPort p f

theorem up_ready : Ready 0 run ∧ Ready 1 run ∧ Ready 3 run := by unfold Ready; decide +kernel

/-! ### Well-formedness: one command that each check refuses -/

theorem test_station_frame_with_flag_inside : (Instr.stationFrameReceived 0 [.byte 0x7E]).wellFormed = false := by decide
theorem test_field_frame_with_flag_inside :
    (Instr.fieldFrameReceived [.byte 1, .byte 0x7E] .etuFirst).wellFormed = false := by decide
theorem test_consent_too_long : (Instr.consent 0 0 (List.replicate 57 0)).wellFormed = false := by decide
theorem test_call_too_long :
    (Instr.call 0 0 { cue := 1, level := 0, repeats := 1, interval := 0, expiry := 0, cancelKind := 0, cancelObject := 0
                      cancelPos := 0, refs := List.replicate 24 noRef }).wellFormed = false := by decide
theorem test_cfg_write_too_long :
    (Instr.cfgWrite 0 0 { sect := 1, entry := 0, flags := 0, fields := List.replicate 54 0 }).wellFormed = false := by
  decide

/-! ### Frames (R168, R169, R170, R181) -/

theorem test_crc_check_value : crc [0x31, 0x32, 0x33, 0x34, 0x35, 0x36, 0x37, 0x38, 0x39] = 0x29B1 := by decide +kernel
theorem test_crc_of_zero : crc [0] = 0xE1F0 := by decide +kernel
theorem test_escape : escapeStation [0x7E, 0x7B, 5] = [0x7D, 0x5E, 0x7D, 0x5B, 5] := by decide +kernel
theorem test_station_round_trip :
    receiveStation 2 (sayStation 2 0x7E 0x23 [0x7D, 0x7B, 0x7C]) =
      some { seq := 0x7E, code := 0x23, payload := [0x7D, 0x7B, 0x7C] } := by decide +kernel
theorem test_field_round_trip : receiveField 8 (sayField 8 0x7E7D) = some 0x7E7D := by decide +kernel
theorem test_word_spells_no_command : decodeTableWord 8 0 = none := by decide

/-! ### What meets the hypotheses of the statements: the machine and the station links -/

theorem test_meets_StepTakesFrontCommand :
    ({ run with pending := [.poll 0 1, .busyRise] } : State).pending = .poll 0 1 :: [.busyRise] ∧ run.pending = [] := by
  decide

theorem test_meets_ResetRestartsThePart :
    let st : Straps := { modeHigh := false, roleA := 0b1100, roleB := 0b1010 }
    (st.roleA.getLsbD 0 = false ∧ st.roleB.getLsbD 0 = false) ∧ (st.roleA.getLsbD 1 = false ∧ st.roleB.getLsbD 1 = true) ∧
      (st.roleA.getLsbD 2 = true ∧ st.roleB.getLsbD 2 = false) ∧ st.roleA.getLsbD 3 = true ∧ st.roleB.getLsbD 3 = true := by
  decide

theorem test_meets_SoftResetWaitsForItsOk :
    (Ready 0 run ∧ run.role 0 = .bridge ∧ run.cfg.committing = none) ∧
    (let s := withPort 0 fun r => { r with sending := true, tx := [.softResetOk 9, .attention 2 [1]] };
      (s.port 0).link = .up ∧ (s.port 0).sending = true ∧ (s.port 0).tx = .softResetOk 9 :: [.attention 2 [1]]) ∧
    (let s := withPort 0 fun r => { r with silence := some 0, tx := [.attention 2 [1], .softResetOk 9] };
      (s.port 0).link = .up ∧ (s.port 0).silence = some 0 ∧ .softResetOk 9 ∈ (s.port 0).tx) := by
  unfold Ready; decide +kernel

theorem test_meets_TickCountsTime :
    (let s := busyWith 1 .active (opIn .opening .travelOpen) run;
      (s.elem 1).op = some (opIn .opening .travelOpen) ∧ (s.elem 1).activity = .active ∧ (s.elem 0).op = none) ∧
    (let s := busyWith 1 .suspended (opIn .opening .travelOpen) run;
      (s.elem 1).op = some (opIn .opening .travelOpen) ∧ (s.elem 1).activity ≠ .active) := by
  decide +kernel

theorem test_meets_LineFramesRoundTrip : (List.replicate 56 (0x7E : Byte)).length ≤ 56 := by decide

theorem test_meets_FrameIsItsRequestRow :
    (Instr.grant 0 3 2 1).wellFormed = true ∧ requestOf (.grant 0 3 2 1) = some (0, 3, 0x22, [2, 1]) ∧ Ready 0 run ∧
      (run.port 0).sending = false ∧ (run.port 0).throttle = false ∧
      receiveStation 0 (sayStation 0 3 0x22 [2, 1]) = some { seq := 3, code := 0x22, payload := [2, 1] } := by
  unfold Ready; decide +kernel

theorem test_meets_BadFrameDiscarded :
    (.framingError ∈ [.byte 1, LineChar.framingError] ∧ (0x7D : Byte) ∉ [(0x00 : Byte), 0x01, 0x7F] ∧
      (List.replicate 56 (0 : Byte)).length ≤ 56 ∧ (0 : Port) ≠ 3) ∧
    ((List.replicate 6 (0 : Byte)).length < 7 ∧ 63 < (List.replicate 64 (0 : Byte)).length) ∧
    [(0 : Byte), 0] ≠ bytes16 (crc ([0, 1, 5, 1, 0] ++ [])) ∧ 56 < (57 : Byte).toNat ∧
      (1 : Byte).toNat ≠ ([] : List Byte).length ∧ (4 : Byte) ≠ byteOf (3 : Port).val ∧ (0x02 : Byte) ≠ 0x01 := by
  decide +kernel

theorem test_valid_frame_is_in_no_bad_clause : receiveStation 3 (sayStation 3 5 1 []) ≠ none := by decide +kernel

theorem test_meets_FrameWaitsInFifo :
    let full (n : Nat) := withPort 0 fun r =>
      { r with tx := [.reserved 1 0x72], rx := List.replicate n { seq := 0, code := 1, payload := [] } };
    (∀ n ∈ [4, 5, 7, 8], ((full n).port 0).link = .up ∧ ((full n).port 0).sending = false ∧
      ((full n).port 0).canHandOn = false ∧ ((full n).port 0).rx.length = n) ∧
    receiveStation 0 (sayStation 0 5 1 []) = some { seq := 5, code := 1, payload := [] } := by
  decide +kernel

theorem test_meets_FirstFrameBringsPortUp :
    (∀ l ∈ [LinkState.down, .lost],
      let s := withPort 1 fun r => { r with link := l, silence := none };
      ((s.port 1).link = .down ∨ (s.port 1).link = .lost) ∧ (s.port 1).sending = false ∧ (s.port 1).rx = [] ∧
        (s.port 1).tx = [] ∧ (s.port 1).throttle = false ∧ (s.port 1).owed = false) ∧
    receiveStation 1 (sayStation 1 5 1 []) = some { seq := 5, code := 1, payload := [] } := by
  decide +kernel

theorem test_meets_LineIsDrivenInTurn :
    ((run.port 0).link = .up ∧ (run.port 0).sending = false ∧
      ((withPort 0 fun r => { r with link := .lost }).port 0).link ≠ .up ∧
      ((withPort 0 fun r => { r with sending := true }).port 0).sending = true) ∧
    (let s := withPort 0 fun r => { r with tx := [.response 1 1 [0]] };
      (s.port 0).link = .up ∧ (s.port 0).sending = false ∧ (s.port 0).waiting = none ∧
        (s.port 0).tx = .response 1 1 [0] :: [] ∧ TxPlace.isReserved (.response 1 1 [0]) = false ∧
        (s.port 0).paused = false) ∧
    (let s := withPort 0 fun r => { r with tx := [.softResetOk 1], paused := true };
      (s.port 0).link = .up ∧ (s.port 0).sending = false ∧ (s.port 0).waiting = none ∧
        (s.port 0).tx = .softResetOk 1 :: [] ∧ TxPlace.isReserved (.softResetOk 1) = false ∧
        TxPlace.isSoftOk (.softResetOk 1) = true) ∧
    (let s := withPort 0 fun r => { r with tx := [.reserved 1 0x72] };
      (s.port 0).link = .up ∧ (s.port 0).sending = false ∧ (s.port 0).tx = .reserved 1 0x72 :: [] ∧
        TxPlace.isReserved (.reserved 1 0x72) = true) ∧
    (let s := withPort 0 fun r => { r with tx := [.response 1 1 [0]], paused := true };
      (s.port 0).link = .up ∧ (s.port 0).sending = false ∧ (s.port 0).tx = .response 1 1 [0] :: [] ∧
        (s.port 0).paused = true ∧ TxPlace.isSoftOk (.response 1 1 [0]) = false) ∧
    (∀ w ∈ [LinkChar.pause, .cont],
      let s := withPort 0 fun r => { r with waiting := some w };
      (s.port 0).link = .up ∧ (s.port 0).sending = false ∧ (s.port 0).waiting = some w) ∧
    (∀ n ∈ [0, 14, 15],
      let s := withPort 0 fun r =>
        { r with tx := .response 1 1 [0] :: List.replicate n (.attention 1 []), sending := true, owed := true };
      (s.port 0).link = .up ∧ (s.port 0).sending = true ∧
        (s.port 0).tx = .response 1 1 [0] :: List.replicate n (.attention 1 []) ∧
        TxPlace.isSoftOk (.response 1 1 [0]) = false ∧ (s.port 0).rx = []) := by
  decide +kernel

/-- The hand-over behind a frame, with 1, 3 and 4 requests waiting and with one place free or all. -/
theorem test_meets_LineIsDrivenInTurn_hand_over :
    ∀ n ∈ [0, 2, 3], ∀ k ∈ [0, 15],
      let q : Request := { seq := 3, code := 0x22, payload := [2, 1] };
      let s := withPort 0 fun r =>
        { r with
          tx := .response 1 1 [0] :: List.replicate k (.attention 1 []), sending := true, throttle := true
          rx := q :: List.replicate n { seq := 4, code := 1, payload := [] } };
      (s.port 0).link = .up ∧ (s.port 0).sending = true ∧ (s.port 0).throttle = true ∧
        (∀ y ∈ List.replicate k (TxPlace.attention 1 []), y.isReserved = false) ∧
        (s.port 0).rx = q :: List.replicate n { seq := 4, code := 1, payload := [] } ∧
        (Instr.grant 0 3 2 1).wellFormed = true ∧ requestOf (.grant 0 3 2 1) = some (0, q.seq, q.code, q.payload) := by
  decide +kernel

theorem test_meets_SilenceLosesPort :
    let s := withPort 2 fun r => { r with silence := some 0, tx := [.attention 3 []], sending := true };
    (s.port 2).link = .up ∧ (s.port 2).silence = some 0 ∧ ∀ t ∈ (s.port 2).tx, t.isSoftOk = false := by
  decide +kernel

theorem test_meets_UnconfiguredRefusesMode :
    requestOf (.start 0 1 { elem := 0, kind := 1, tag := 0, cls := 0, flags := 0 }) =
        some (0, 1, 0x12, [0, 1, 0, 0, 0, 0, 0, 0]) ∧
      (0x12 : Byte) ≠ 0x01 ∧ (0x12 : Byte) ≠ 0x02 ∧ (0x12 : Byte) ≠ 0x03 ∧ (0x12 : Byte) ≠ 0x63 ∧ Ready 0 unconfigured ∧
      unconfigured.cfg.startUp = .unconfigured := by
  unfold Ready; decide +kernel

theorem test_meets_ViewsChangeNothing :
    Ready 3 (withPort 3 fun r => { r with tx := List.replicate 15 (.attention 3 []) }) ∧ Ready 0 run ∧ run.cfg.startUp ≠ .unconfigured ∧ run.elem? 3 = some (3, doorCfg 0b10 9) ∧
      (run.elem? 4 = none ∧ run.elem? 31 = none ∧ run.elem? 32 = none) ∧ run.zone? 2 = some (1, zoneOf 5 .passenger) ∧
      (run.zone? 3 = none ∧ run.zone? 16 = none ∧ run.zone? 17 = none ∧ (3 : Byte) ≠ 0) ∧ run.zoneCfg 0 ≠ none ∧
      run.zoneCfg 15 = none := by
  unfold Ready; decide +kernel

/-! ### Deck elements and operations -/

def modify (e enabled mask : Byte) : ModifyFields :=
  { elem := e, enabled := enabled, mask := mask, cls := 7, multipath := 0 }

def startOf (e kind : Byte) : StartFields := { elem := e, kind := kind, tag := 0xFFFFFFFF, cls := 7, flags := 1 }

/-- A door that owes a closure, in a position. -/
def owing (e : ElemId) (enabled : Bool) (p : Position) (s : State) : State :=
  s.modElem e fun r => { r with closureOwed := true, enabled := enabled, position := p }

def withUnit (u : UnitId) (st : UnitState) (s : State) : State := s.modUnit u fun r => { r with state := st }

theorem test_meets_ModifyReplacesFourFields :
    (Ready 0 run ∧ run.cfg.startUp = .run ∧ run.role 0 = .bridge) ∧
    (let f := modify 1 1 0b0010;
      run.elem? f.elem = some (1, visorCfg) ∧ f.cls.toNat ≤ 7 ∧ f.mask.extractLsb' 0 4 &&& ~~~visorCfg.installed = 0 ∧
        (isDoor visorCfg = false → f.mask.extractLsb' 0 4 ≠ 0) ∧
        (isDoor visorCfg = true → f.multipath.getLsbD 0 = false) ∧ (run.elem 1).activity = .idle ∧
        (run.elem 1).listed = false ∧ (run.elem 1).enabled = f.enabled.getLsbD 0) ∧
    (let c := doorCfg 0b01 0; let f := modify 0 0 0; let s := owing 0 true .between run;
      Ready 0 s ∧ s.elem? f.elem = some (0, c) ∧ f.mask.extractLsb' 0 4 &&& ~~~c.installed = 0 ∧
        (isDoor c = false → f.mask.extractLsb' 0 4 ≠ 0) ∧ (s.elem 0).activity = .idle ∧ (s.elem 0).listed = false ∧
        (s.elem 0).enabled = true ∧ f.enabled.getLsbD 0 = false) ∧
    (∀ p ∈ [Position.opened, .between],
      let c := doorCfg 0b01 0; let f := modify 0 1 0; let s := owing 0 false p run;
      Ready 0 s ∧ s.elem? f.elem = some (0, c) ∧ f.cls.toNat ≤ 7 ∧ isDoor c = true ∧ (s.elem 0).closureOwed = true ∧
        (s.elem 0).activity = .idle ∧ (s.elem 0).listed = false ∧ (s.elem 0).enabled = false ∧
        f.enabled.getLsbD 0 = true ∧ ((s.elem 0).position = .opened ∨ (s.elem 0).position = .between)) := by
  unfold Ready; decide +kernel

/-- An enabling MODIFY that starts no closure: of a powered element, of a door that owes none, and of one that stands CLOSED. -/
theorem test_meets_ModifyReplacesFourFields_enabling :
    (let f := modify 1 1 0b0010; let s := run.modElem 1 fun r => { r with enabled := false };
      Ready 0 s ∧ s.elem? f.elem = some (1, visorCfg) ∧ f.cls.toNat ≤ 7 ∧
        f.mask.extractLsb' 0 4 &&& ~~~visorCfg.installed = 0 ∧ f.mask.extractLsb' 0 4 ≠ 0 ∧ isDoor visorCfg = false ∧
        (s.elem 1).activity = .idle ∧ (s.elem 1).listed = false ∧ (s.elem 1).enabled = false ∧
        f.enabled.getLsbD 0 = true) ∧
    (let s := run.modElem 0 fun r => { r with enabled := false, position := .opened };
      Ready 0 s ∧ s.elem? 0 = some (0, doorCfg 0b01 0) ∧ (s.elem 0).closureOwed = false ∧ (s.elem 0).enabled = false) ∧
    (let s := owing 0 false .closed run;
      Ready 0 s ∧ (s.elem 0).closureOwed = true ∧ (s.elem 0).enabled = false ∧ (s.elem 0).position ≠ .opened ∧
        (s.elem 0).position ≠ .between) := by
  unfold Ready; decide +kernel

/-- The operation of a zone closure in travel. -/
def closing : OpRec := { OpRec.closure 1 with stage := .travelClose }

theorem test_meets_DoorStartBegins :
    (∀ x ∈ [(OpKind.opening, (1 : Byte), Position.closed), (.closing, 2, .between), (.closing, 2, .opened),
        (.opening, 1, .between)],
      let s := heldBy 0 0 (at' 0 x.2.2 .none run); let f := startOf 0 x.2.1; let c := doorCfg 0b01 0;
      Ready 0 s ∧ s.cfg.startUp = .run ∧ s.elem? f.elem = some (0, c) ∧ isDoor c = true ∧ opKind? f.kind = some x.1 ∧
        f.cls.toNat ≤ 7 ∧ (s.elem 0).enabled = true ∧ s.startTest 0 0 c x.1 = none ∧ (s.elem 0).activity = .idle ∧
        ((s.elem 0).position = .closed ∧ x.1 ≠ .closing ∨ (s.elem 0).position = .between ∨
          (s.elem 0).position = .opened ∧ x.1 ≠ .opening) ∧
        (s.elem 0).lock = .none ∧ s.zoneRefuses 0 c x.1 = false ∧ s.failingEntry 0 x.1 = none ∧
        (elementOutputs c).Nodup) ∧
    (let c := doorCfg 0b10 9; let s := alarmed 1 (at' 3 .opened .none run);
      Ready 3 s ∧ s.elem? 3 = some (3, c) ∧ s.startTest 3 3 c .closing = none ∧ (s.elem 3).position = .opened ∧
        (s.elem 3).lock = .none ∧ s.zoneRefuses 3 c .closing = false ∧ s.startMark c .closing = true) ∧
    (let c := doorCfg 0b01 0;
      opKind? (startOf 0 3).kind = some .egress ∧ run.startTest 3 0 c .egress = none ∧ (run.elem 0).position = .closed ∧
        run.zoneRefuses 3 c .egress = false ∧ run.failingEntry 0 .egress = none ∧
        ((at' 0 .opened .none run).elem 0).position = .opened ∧ OpKind.egress ≠ .opening) := by
  unfold Ready; decide +kernel

/-- An EGRESS overtakes an operation of a station, and a zone closure. -/
theorem test_meets_DoorStartBegins_overtaking :
    ∀ a ∈ [Activity.active, .suspended], ∀ q ∈ [Position.closed, .between, .opened],
      ∀ o ∈ [opIn .opening .travelOpen, closing],
      let c := doorCfg 0b01 0; let f := startOf 0 3; let s := busyWith 0 a o (at' 0 q .none run);
      Ready 3 s ∧ s.cfg.startUp = .run ∧ s.role 3 = .safety ∧ s.elem? f.elem = some (0, c) ∧ isDoor c = true ∧
        opKind? f.kind = some .egress ∧ f.cls.toNat ≤ 7 ∧ (s.elem 0).enabled = true ∧ (s.elem 0).op = some o ∧
        (s.elem 0).activity = a ∧ o.kind ≠ .egress ∧ (s.elem 0).position = q ∧ (s.elem 0).lock = .none ∧
        s.failingEntry 0 .egress = none := by
  unfold Ready; decide +kernel

theorem test_meets_StartAtTargetIsDone :
    (let c := doorCfg 0b01 0; let s := heldBy 0 0 run; let f := startOf 0 2;
      Ready 0 s ∧ s.cfg.startUp = .run ∧ s.elem? f.elem = some (0, c) ∧ opKind? f.kind = some .closing ∧
        f.cls.toNat ≤ 7 ∧ (s.elem 0).enabled = true ∧ s.startTest 0 0 c .closing = none ∧ (s.elem 0).activity = .idle ∧
        (s.elem 0).position = .closed ∧ (s.elem 0).lock = .none ∧ s.zoneRefuses 0 c .closing = false ∧
        s.failingEntry 0 .closing = none ∧ (isDoor c = true) ∧ (s.elem 0).closureOwed = false ∧
        ∀ w ∈ elementOutputs c, (s.node w.node).outputs.getLsbD w.line.val = false) ∧
    (let s := heldBy 2 1 run; let f := startOf 2 1;
      Ready 1 s ∧ s.elem? f.elem = some (2, rampCfg) ∧ opKind? f.kind = some .opening ∧ (s.elem 2).enabled = true ∧
        s.startTest 1 2 rampCfg .opening = none ∧ (s.elem 2).activity = .idle ∧ (s.elem 2).position = .opened ∧
        (s.elem 2).lock = .none ∧ s.zoneRefuses 1 rampCfg .opening = false ∧ s.failingEntry 2 .opening = none ∧
        (∃ u, inPath (rampCfg.installed &&& (s.elem 2).mask) u = true ∧ (s.unit u).state ≠ .fault) ∧
        (s.elem 2).closureOwed = false) := by
  unfold Ready; decide +kernel

theorem test_meets_PoweredStartIsGranted :
    (let s := withUnit 0 .ready (heldBy 1 0 run); let f := startOf 1 1; let c := visorCfg;
      Ready 0 s ∧ s.cfg.startUp = .run ∧ s.elem? f.elem = some (1, c) ∧ isDoor c = false ∧
        opKind? f.kind = some .opening ∧ f.cls.toNat ≤ 7 ∧ (s.elem 1).enabled = true ∧
        s.startTest 0 1 c .opening = none ∧ (s.elem 1).activity = .idle ∧ (s.elem 1).position = .closed ∧
        (s.elem 1).lock = .locked ∧ lockBound c = true ∧ s.zoneRefuses 0 c .opening = false ∧
        s.failingEntry 1 .opening = none ∧ s.dpm.queue = [] ∧ inPath (c.installed &&& (s.elem 1).mask) 0 = true ∧
        c.weight ≤ (s.unit 0).free ∧ (s.unit 0).state = .ready ∧
        ∀ v, inPath (c.installed &&& (s.elem 1).mask) v = true →
          ((s.unit v).state = .serving ∨ v < 0 ∧ (s.unit v).state = .ready) → (s.unit v).free < c.weight) ∧
    (let holder : Holder := { elem := 1, weight := 1, path := 0b11, multipath := true };
      let s := (withUnit 0 .ready (heldBy 2 0 run)).modUnit 1 fun r => { r with state := .serving, holders := [holder] };
      let c := rampCfg;
      Ready 0 s ∧ s.elem? 2 = some (2, c) ∧ opKind? 2 = some .closing ∧ s.startTest 0 2 c .closing = none ∧
        (s.elem 2).position = .opened ∧ (s.elem 2).lock = .none ∧ lockBound c = false ∧
        s.zoneRefuses 0 c .closing = false ∧ s.failingEntry 2 .closing = none ∧ s.dpm.queue = [] ∧
        inPath (c.installed &&& (s.elem 2).mask) 1 = true ∧ c.weight ≤ (s.unit 1).free ∧
        (s.unit 1).state = .serving ∧
        ∀ v, v < 1 → inPath (c.installed &&& (s.elem 2).mask) v = true → (s.unit v).state = .serving →
          (s.unit v).free < c.weight) := by
  unfold Ready; decide +kernel

theorem test_meets_PoweredStartWaits :
    let s := heldBy 1 0 run; let f := startOf 1 1; let c := visorCfg;
    Ready 0 s ∧ s.cfg.startUp = .run ∧ s.elem? f.elem = some (1, c) ∧ isDoor c = false ∧
      opKind? f.kind = some .opening ∧ OpKind.opening ≠ .egress ∧ f.cls.toNat ≤ 7 ∧ (s.elem 1).enabled = true ∧
      s.startTest 0 1 c .opening = none ∧ (s.elem 1).activity = .idle ∧ (s.elem 1).position = .closed ∧
      (s.elem 1).lock ≠ .unknown ∧ (s.elem 1).lock ≠ .conflict ∧ s.zoneRefuses 0 c .opening = false ∧
      s.failingEntry 1 .opening = none ∧ s.dpm.queue = [] ∧
      (∀ v, inPath (c.installed &&& (s.elem 1).mask) v = true → (s.unit v).state = .off) ∧
      inPath (c.installed &&& (s.elem 1).mask) 0 = true ∧
      (∀ v, v < 0 → inPath (c.installed &&& (s.elem 1).mask) v = false) ∧
      s.input (s.unitCfg 0).running ≠ some true ∧ (s.unitCfg 0).startOut = some { node := 1, line := 0 } := by
  unfold Ready; decide +kernel

theorem test_meets_StartIsRefused :
    (let s := alarmed 0 (heldBy 0 0 run); let c := doorCfg 0b01 0; let f := startOf 0 1;
      Ready 0 s ∧ s.cfg.startUp = .run ∧ s.elem? f.elem = some (0, c) ∧ opKind? f.kind = some .opening ∧
        f.cls.toNat ≤ 7 ∧ (s.elem 0).enabled = true ∧ s.startTest 0 0 c .opening = none ∧
        (s.elem 0).activity = .idle ∧ (s.elem 0).position = .closed ∧ (s.elem 0).lock ≠ .unknown ∧
        (s.elem 0).lock ≠ .conflict ∧ isDoor c = true ∧
        ∃ z, boundsZone c z = true ∧ inZones s.etu.alarmed z = true) ∧
    (let s := alarmed 0 (heldBy 2 1 run);
      Ready 1 s ∧ s.elem? 2 = some (2, rampCfg) ∧ s.startTest 1 2 rampCfg .closing = none ∧
        (s.elem 2).position = .opened ∧ isDoor rampCfg = false ∧ s.role 1 = .deck ∧
        inZones s.etu.alarmed rampCfg.homeZone = true) ∧
    (let s := heldBy 1 0 (at' 2 .closed .none run);
      Ready 0 s ∧ s.elem? 1 = some (1, visorCfg) ∧ s.startTest 0 1 visorCfg .opening = none ∧
        (s.elem 1).position = .closed ∧ isDoor visorCfg = false ∧ inZones s.etu.alarmed visorCfg.homeZone = false ∧
        s.failingEntry 1 .opening = some 0) := by
  unfold Ready; decide +kernel

theorem test_meets_DecodedStatesAndInterlocks : (at' 2 .closed .none run).failingEntry 1 .opening = some 0 := by decide +kernel

/-- E2 in travel with a slot of weight 1 on PU0, held by port 0, and these waiters. -/
def serving (q : List Waiter) : State :=
  ((busyWith 2 .active { opIn .closing .travelClose with slot := some 0 } (heldBy 2 0 run)).modUnit 0 fun r =>
    { r with state := .serving, holders := [{ elem := 2, weight := 1, path := 3, multipath := false }] }).setQueue q

theorem test_meets_HaltEndsTheOperation :
    (let o := opIn .opening .travelOpen; let s := busyWith 2 .active o (heldBy 2 0 run);
      Ready 0 s ∧ s.cfg.startUp ≠ .unconfigured ∧ s.elem? 2 = some (2, rampCfg) ∧ (s.elem 2).enabled = true ∧
        s.haltTest 0 2 rampCfg = none ∧ (s.elem 2).activity.inProgress = true ∧ (s.elem 2).op = some o ∧
        o.mark = false ∧ (s.elem 2).closureOwed = false ∧ s.slotOf 2 = none ∧ s.waits 2 = none ∧
        (elementOutputs rampCfg).Nodup) ∧
    (let c := doorCfg 0b01 0; let s := busyWith 0 .active closing (owing 0 true .between run);
      Ready 3 s ∧ s.elem? 0 = some (0, c) ∧ (s.elem 0).enabled = true ∧ s.haltTest 3 0 c = none ∧
        (s.elem 0).activity.inProgress = true ∧ (s.elem 0).op = some closing ∧ closing.mark = true ∧
        s.role 3 = .safety) ∧
    (let c := doorCfg 0b01 0; let o := opIn .egress .holdOpen; let s := busyWith 0 .active o (owing 0 true .opened run);
      Ready 0 s ∧ s.elem? 0 = some (0, c) ∧ (s.elem 0).enabled = true ∧ s.haltTest 0 0 c = none ∧
        (s.elem 0).activity.inProgress = true ∧ (s.elem 0).op = some o ∧ o.mark = false ∧
        (s.elem 0).closureOwed = true ∧ isDoor c = true ∧ (s.elem 0).position = .opened) := by
  unfold Ready; decide +kernel

/-- HALT of a waiter, and of the one holder of a unit. -/
theorem test_meets_HaltEndsTheOperation_release :
    (let w : Waiter := { elem := 2, weight := 1, path := 3, multipath := false, kind := .start };
      let s := (busyWith 2 .startPending (opIn .opening .prep) (heldBy 2 0 run)).setQueue [w];
      Ready 0 s ∧ s.haltTest 0 2 rampCfg = none ∧ (s.elem 2).activity.inProgress = true ∧ s.slotOf 2 = none ∧
        s.dpm.queue = [w] ∧ w.elem = 2) ∧
    ((serving []).slotOf 2 = some 0 ∧ ((serving []).unit 0).state = .serving ∧ ((serving []).unit 0).idleTimer = none ∧
      (serving []).dpm.queue = [] ∧ (serving []).haltTest 0 2 rampCfg = none) := by
  unfold Ready; decide +kernel

/-- HALT of a holder whose slot a waiter takes. -/
theorem test_meets_HaltEndsTheOperation_walk :
    ∀ x ∈ [(OpKind.opening, Position.between), (.opening, .closed), (.closing, .opened)],
      let d : ElementCfg := { rampCfg with kind := .hoist };
      let w : Waiter := { elem := 1, weight := 2, path := 0b0011, multipath := true, kind := .start };
      let m := opIn x.1 .prep;
      let s := busyWith 1 .startPending m (at' 1 x.2 .none (serving [w]));
      let s := { s with
        cfg := { s.cfg with loaded := { image with elements := image.elements.set 1 (some d) } } };
      Ready 0 s ∧ s.haltTest 0 2 rampCfg = none ∧ s.slotOf 2 = some 0 ∧ (s.unit 0).state = .serving ∧
        (s.unit 0).idleTimer = none ∧ s.dpm.queue = [w] ∧ (1 : ElemId) ≠ 2 ∧ inPath w.path 0 = true ∧ 1 ≤ w.weight ∧
        w.weight + ((((s.unit 0).holders.filter fun h => h.elem ≠ 2).map Holder.weight).sum) ≤ 2 ∧
        s.elemCfg 1 = some d ∧ isDoor d = false ∧ lockBound d = false ∧ (s.elem 1).activity = .startPending ∧
        (s.elem 1).op = some m ∧ m.kind = x.1 ∧ s.opFailingEntry 1 = none ∧ (s.elem 1).position = x.2 := by
  unfold Ready; decide +kernel

theorem test_meets_OperationIsKeptFromOthers :
    (let c := doorCfg 0b01 0; let s := busyWith 0 .active closing run;
      Ready 0 s ∧ s.cfg.startUp ≠ .unconfigured ∧ s.elem? 0 = some (0, c) ∧ (s.elem 0).enabled = true ∧
        s.haltTest 0 0 c = none ∧ (s.elem 0).op = some closing ∧ closing.mark = true ∧ s.role 0 ≠ .safety ∧
        (s.elem 0).activity.inProgress = true) ∧
    (Ready 1 run ∧ run.elem? 1 = some (1, visorCfg) ∧ (run.elem 1).enabled = true) ∧ Ready 2 run ∧
      run.reaches 2 visorCfg = false ∧ run.reaches 1 visorCfg = true ∧ (run.elem 1).hold = .none ∧
      ((heldBy 1 0 run).elem 1).hold = .held 0 ∧ (0 : Port) ≠ 1 ∧
      ((run.modElem 1 fun r => { r with hold := .orphaned 1 }).elem 1).hold = .orphaned 1 ∧
      (heldBy 1 1 run).reaches 1 visorCfg = true ∧ ((heldBy 1 1 run).elem 1).hold = .held 1 ∧
      ((heldBy 1 1 run).elem 1).activity ≠ .suspended := by
  unfold Ready; decide +kernel

theorem test_meets_ClearReturnsToIdle :
    (let s := busyWith 2 .ended { opIn .opening .travelOpen with code := .done }
        (run.modElem 2 fun r => { r with pend := { ended := true, stage := true, alert := true }, overrun := true });
      Ready 0 s ∧ s.cfg.startUp ≠ .unconfigured ∧ s.elem? 2 = some (2, rampCfg) ∧ (s.elem 2).enabled = true ∧
        s.haltTest 0 2 rampCfg = none ∧ s.marked 2 = false ∧ (s.elem 2).closureOwed = false ∧ s.slotOf 2 = none ∧
        s.waits 2 = none) ∧
    (let c := doorCfg 0b01 0; let s := busyWith 0 .active closing (owing 0 true .between run);
      Ready 3 s ∧ s.elem? 0 = some (0, c) ∧ s.haltTest 3 0 c = none ∧ s.role 3 = .safety ∧
        (s.elem 0).activity.inProgress = true ∧ s.marked 0 = true) ∧
    (∀ p ∈ [Position.opened, .between],
      let c := doorCfg 0b01 0; let s := owing 0 true p run;
      Ready 0 s ∧ s.elem? 0 = some (0, c) ∧ (s.elem 0).enabled = true ∧ s.haltTest 0 0 c = none ∧ s.marked 0 = false ∧
        ¬ ((s.elem 0).activity.inProgress = true ∧ s.marked 0 = true) ∧ (s.elem 0).closureOwed = true ∧
        isDoor c = true) := by
  unfold Ready; decide +kernel

theorem test_reports_listed_at_rest : ReportsListed run ∧ OpsMatchActivity run := by
  unfold ReportsListed OpsMatchActivity; decide +kernel

/-- E1's operation suspended for these reasons, its element held by port 1. -/
def stopped (r : Reasons) : OpRec := { opIn .opening .travelOpen with reasons := r, suspTimer := some 9, window := some 1 }

def suspended (r : Reasons) (ramp : Position) : State :=
  busyWith 1 .suspended (stopped r) (heldBy 1 1 (at' 2 ramp .none run))

theorem test_meets_ResumeClearsInterlock :
    let r (c p : Bool) : Reasons := { consent := c, interlock := true, path := p }
    (∀ x ∈ [(false, false), (true, false), (false, true)],
      let s := suspended (r x.1 x.2) .opened;
      Ready 1 s ∧ s.cfg.startUp ≠ .unconfigured ∧ s.elem? 1 = some (1, visorCfg) ∧ (s.elem 1).enabled = true ∧
        s.reaches 1 visorCfg = true ∧ (s.elem 1).hold = .held 1 ∧ (s.elem 1).activity = .suspended ∧
        (s.elem 1).op = some (stopped (r x.1 x.2)) ∧ (stopped (r x.1 x.2)).reasons.interlock = true ∧
        s.opFailingEntry 1 = none ∧ stageDone (stopped (r x.1 x.2)).stage (s.elem 1) = false ∧
        (stopped (r x.1 x.2)).stage ≠ .travelClose) ∧
    (suspended (r false false) .closed).opFailingEntry 1 = some 0 ∧ (elementOutputs visorCfg).Nodup := by
  unfold Ready; decide +kernel

theorem test_meets_ConsentRenews :
    (∀ x ∈ [(Activity.active, false, false, false), (.suspended, false, true, false), (.suspended, true, true, false),
        (.suspended, true, false, true), (.suspended, true, false, false)],
      let o := stopped { consent := x.2.1, interlock := x.2.2.1, path := x.2.2.2 };
      let s := busyWith 1 x.1 o (heldBy 1 1 run);
      Ready 1 s ∧ s.cfg.startUp ≠ .unconfigured ∧ s.elem? 1 = some (1, visorCfg) ∧ (s.elem 1).hold = .held 1 ∧
        visorCfg.consent = true ∧ isDoor visorCfg = false ∧ (s.elem 1).op = some o ∧ (s.elem 1).activity = x.1 ∧
        stageDone o.stage (s.elem 1) = false) ∧
    run.elem? 32 = none ∧ run.elem? 1 = some (1, visorCfg) ∧ (run.elem 1).hold ≠ .held 1 := by
  unfold Ready; decide +kernel

/-- Lists of more than 8, and of 8 with a renewed or a cleared element among ignored ones. -/
theorem test_meets_ConsentRenews_lists :
    8 < (List.replicate 9 (0 : Byte)).length ∧
    ∀ c ∈ [false, true],
      let o := stopped { consent := c, interlock := true, path := false };
      let s := busyWith 1 .suspended o (heldBy 1 1 run); let bs : List Byte := [0, 1, 2, 3, 4, 31, 32, 255];
      Ready 1 s ∧ s.cfg.startUp ≠ .unconfigured ∧ bs ≠ [] ∧ bs.length ≤ 8 ∧ bs.Nodup ∧ byteOf (1 : ElemId).val ∈ bs ∧
        (s.elem 1).op = some o ∧ o.reasons.interlock = true := by
  unfold Ready; decide +kernel

theorem test_meets_StopAllHaltsPowered :
    let s := busyWith 0 .active closing (busyWith 2 .active (opIn .closing .travelClose) run);
    Ready 0 s ∧ s.cfg.startUp ≠ .unconfigured ∧ s.role 0 = .bridge ∧ OpsMatchActivity s ∧
      s.elemCfg 2 = some rampCfg ∧ isDoor rampCfg = false ∧ (s.elem 2).activity.inProgress = true ∧
      s.elemCfg 0 = some (doorCfg 0b01 0) ∧ isDoor (doorCfg 0b01 0) = true ∧ s.waits 0 = none := by
  unfold Ready OpsMatchActivity; decide +kernel

theorem test_meets_StageTimersExpire :
    (∀ x ∈ [(Stage.warn, (500 : Word32)), (.reverse, 200), (.retryPause, 300), (.holdOpen, 3000)],
      let c := doorCfg 0b01 0; let o := { opIn .closing x.1 with stageTime := x.2 };
      let s := busyWith 0 .active o (at' 0 .opened .none run);
      s.elemCfg 0 = some c ∧ (s.elem 0).op = some o ∧ (s.elem 0).activity = .active ∧
        (o.stage = .warn ∧ 100 * c.tWrn ≤ o.stageTime.toNat ∨ o.stage = .reverse ∧ 200 ≤ o.stageTime.toNat ∨
          o.stage = .retryPause ∧ 300 ≤ o.stageTime.toNat ∨
          o.stage = .holdOpen ∧ 100 * s.cfg.loaded.part.tEgr ≤ o.stageTime.toNat) ∧
        (s.elem 0).position ≠ .closed ∧ s.obstructed c = false ∧ (elementOutputs c).Nodup) ∧
    (∀ x ∈ [(Stage.unlock, (2000 : Word32)), (.lock, 2000), (.travelOpen, 6000), (.travelClose, 6000)],
      let o := { opIn .opening x.1 with stageTime := x.2 };
      let s := busyWith 1 .active o run;
      s.elemCfg 1 = some visorCfg ∧ (s.elem 1).op = some o ∧ (s.elem 1).activity = .active ∧
        ((o.stage = .unlock ∨ o.stage = .lock) ∧ 100 * visorCfg.tLck ≤ o.stageTime.toNat ∨
          (o.stage = .travelOpen ∨ o.stage = .travelClose) ∧ 100 * visorCfg.tTrv ≤ o.stageTime.toNat) ∧
        (s.elem 1).closureOwed = false ∧ s.slotOf 1 = none ∧ s.waits 1 = none) := by
  decide +kernel

theorem test_meets_ObstructionReversesTheDoor :
    ∀ n ∈ [0, 1, 2], ∀ x ∈ [(Position.opened, some (4 : Word16)), (.between, none)],
      let c := doorCfg 0b01 0;
      let o := { closing with stage := .warn, stageTime := 500, attempts := n };
      let s := (busyWith 0 .active o (at' 0 x.1 .none run)).modNode 0 fun r => { r with inputs := x.2 };
      s.elemCfg 0 = some c ∧ (s.elem 0).op = some o ∧ isDoor c = true ∧ (s.elem 0).activity = .active ∧
        o.stage = .warn ∧ 100 * c.tWrn ≤ o.stageTime.toNat ∧ (s.elem 0).position ≠ .closed ∧
        c.obstruction.isSome = true ∧ s.input c.obstruction ≠ some false ∧ o.mark = true ∧ s.slotOf 0 = none ∧
        s.waits 0 = none ∧ (elementOutputs c).Nodup := by
  decide +kernel

theorem test_meets_SuspensionFollowsItsTimers :
    (∀ a ∈ [Activity.active, .suspended],
      let o := { opIn .opening .travelOpen with window := some 0 }; let s := busyWith 1 a o run;
      s.elemCfg 1 = some visorCfg ∧ (s.elem 1).op = some o ∧ o.window = some 0 ∧
        ((s.elem 1).activity = .active ∨ (s.elem 1).activity = .suspended) ∧ (elementOutputs visorCfg).Nodup) ∧
    (let o := { opIn .opening .travelOpen with suspTimer := some 0 }; let s := busyWith 1 .suspended o run;
      s.elemCfg 1 = some visorCfg ∧ (s.elem 1).op = some o ∧ (s.elem 1).activity = .suspended ∧
        o.suspTimer = some 0 ∧ (s.elem 1).closureOwed = false ∧ s.slotOf 1 = none ∧ s.waits 1 = none) := by
  decide +kernel

/-! ### Holds, power units and zones -/

def withHold (h : Hold) : State := run.modElem 2 fun r => { r with hold := h }

theorem test_meets_ClaimAndReleaseMoveTheHold :
    (Ready 1 run ∧ Ready 2 run ∧ Ready 0 run ∧ run.cfg.startUp = .run ∧ run.elem? 2 = some (2, rampCfg) ∧
      (run.elem 2).enabled = true) ∧
    run.reaches 2 rampCfg = false ∧ run.reaches 1 rampCfg = true ∧ run.reaches 0 rampCfg = true ∧
      (run.elem 2).hold = .none ∧ ((withHold (.held 1)).elem 2).hold = .held 1 ∧
      ((withHold (.held 0)).elem 2).hold = .held 0 ∧ (0 : Port) ≠ 1 ∧
      ((withHold (.orphaned 2)).elem 2).hold = .orphaned 2 ∧ (2 : Port) ≠ 1 ∧ run.role 1 ≠ .bridge ∧
      ((withHold (.orphaned 1)).elem 2).hold = .orphaned 1 ∧ run.role 0 = .bridge ∧
      (run.elem 2).hold ≠ .held 1 := by
  unfold Ready; decide +kernel

theorem test_meets_BridgeMovesHolds :
    (Ready 0 run ∧ run.role 0 = .bridge ∧ run.elem? 2 = some (2, rampCfg) ∧ (run.elem 2).enabled = true ∧
      run.cfg.startUp = .run) ∧
    ((run.auth 1).linkUp = true ∧ run.reaches 1 rampCfg = true) ∧ run.reaches 3 rampCfg = false ∧
      ((run.modAuth 1 fun a => { a with linkUp := false }).auth 1).linkUp = false ∧
      service.cfg.startUp ≠ .unconfigured := by
  unfold Ready; decide +kernel

theorem test_meets_OrphanTimeoutDropsHolds :
    (((withHold (.orphaned 1)).modAuth 1 fun _ => { linkUp := false, orphan := some 0 }).auth 1).orphan = some 0 := by
  decide +kernel

def unitIn (st : UnitState) : State :=
  run.modUnit 0 fun r => { r with state := st, reason := .lostPressure, startTimer := some 0, idleTimer := some 0 }

def faultInput (s : State) : State := s.modNode 1 fun r => { r with inputs := some 2 }

theorem test_meets_PuClearReturnsToOff :
    let s := unitIn .fault;
    (Ready 0 s ∧ s.cfg.startUp ≠ .unconfigured ∧ s.role 0 = .bridge ∧ s.unit? 0 = some 0) ∧ (run.unit 0).state ≠ .fault ∧
      (s.unit 0).state = .fault ∧ s.unitOnline 0 = true ∧ s.input (s.unitCfg 0).fault ≠ some true ∧ s.dpm.queue = [] ∧
      (faultInput s).input ((faultInput s).unitCfg 0).fault = some true ∧
      (s.modNode 1 fun r => { r with state := .lost, inputs := none }).unitOnline 0 = false ∧
      service.cfg.startUp = .service := by
  unfold Ready; decide +kernel

theorem test_meets_UnitTimersExpire :
    (((unitIn .starting).unit 0).state = .starting ∧ ((unitIn .starting).unit 0).startTimer = some 0 ∧
      (run.elem 0).activity = .idle ∧ (unitIn .starting).waits 0 = none ∧ ((unitIn .starting).unit 0).holders = [] ∧
      (unitIn .starting).dpm.queue = [] ∧ ((unitIn .starting).unitCfg 0).startOut = some { node := 1, line := 0 }) ∧
    ((unitIn .ready).unit 0).state = .ready ∧ ((unitIn .ready).unit 0).idleTimer = some 0 := by
  decide +kernel

theorem test_meets_ZoneAlarmIsTaken :
    (Ready 3 run ∧ run.role 3 = .safety ∧ run.zone? 1 = some (0, zoneOf 2 .vehicle) ∧
      run.cfg.startUp ≠ .unconfigured ∧ (run.zone 0).fire = .normal) ∧
    ((alarmed 0 run).zone 0).fire ≠ .normal ∧ service.cfg.startUp ≠ .unconfigured ∧
      (∀ d, d ≠ 0 → (run.elemCfg d).any (fun c => boundsZone c 0) = false) ∧
      ∀ p ∈ [Position.opened, .between],
        let s := at' 0 p .none run;
        s.cfg.startUp = .run ∧ s.elemCfg 0 = some (doorCfg 0b01 0) ∧ boundsZone (doorCfg 0b01 0) 0 = true ∧
          (s.elem 0).enabled = true ∧ (s.elem 0).activity = .idle ∧ (s.elem 0).position = p := by
  unfold Ready; decide +kernel

/-- The facts about a state that the clauses about the door E0 and the alarm of its zone have in common, room for the events
included. -/
def doorAtAlarm (s : State) : Bool :=
  decide <| ((s.port 3).rx = [] ∧ (s.port 3).canHandOn = true) ∧ s.role 3 = .safety ∧ s.zone? 1 = some (0, zoneOf 2 .vehicle) ∧ s.cfg.startUp = .run ∧
    (s.zone 0).fire = .normal ∧ s.elemCfg 0 = some (doorCfg 0b01 0) ∧ boundsZone (doorCfg 0b01 0) 0 = true ∧
    (after (.zoneAlarm 3 5 1) s).rpu.events.length < 16

/-- The rows of R110's table: the door disabled, at rest, in an OPEN, in a CLOSE without the mark, and in one with it or an
EGRESS. -/
theorem test_meets_ZoneAlarmIsTaken_rows :
    (∀ p ∈ [Position.closed, .between, .opened, .unknown, .conflict],
      let s := run.modElem 0 fun r => { r with enabled := false, position := p };
      doorAtAlarm s = true ∧ (s.elem 0).enabled = false ∧ (s.elem 0).closureOwed = false) ∧
    (∀ p ∈ [Position.closed, .between, .opened, .unknown],
      (let s := at' 0 p .none run; doorAtAlarm s = true ∧ (s.elem 0).enabled = true ∧ (s.elem 0).activity = .idle) ∧
      (let s := busyWith 0 .ended { opIn .opening .travelOpen with code := .done } (at' 0 p .none run);
        doorAtAlarm s = true ∧ (s.elem 0).enabled = true ∧ (s.elem 0).activity = .ended) ∧
      let o := opIn .opening .travelOpen; let s := busyWith 0 .active o (at' 0 p .none run);
      doorAtAlarm s = true ∧ (s.elem 0).op = some o ∧ (s.elem 0).activity.inProgress = true ∧ o.kind = .opening) := by
  decide +kernel

theorem test_meets_ZoneAlarmIsTaken_closing_rows :
    (let o := opIn .closing .travelClose; let s := busyWith 0 .active o (at' 0 .between .none run);
      doorAtAlarm s = true ∧ (s.elem 0).op = some o ∧ (s.elem 0).activity.inProgress = true ∧ o.kind = .closing ∧
        o.mark = false ∧ (s.elem 0).activity ≠ .suspended) ∧
    (let o := { opIn .closing .travelClose with reasons := { noReasons with interlock := true } };
      let s := busyWith 0 .suspended o (at' 0 .between .none run);
      doorAtAlarm s = true ∧ (s.elem 0).op = some o ∧ o.kind = .closing ∧ o.mark = false ∧ (s.elem 0).activity = .suspended ∧
        o.reasons.consent = false ∧ o.reasons.path = false ∧ stageDone o.stage (s.elem 0) = false ∧
        s.obstructed (doorCfg 0b01 0) = false) ∧
    (let o := { opIn .closing .travelClose with reasons := { noReasons with interlock := true, consent := true } };
      let s := busyWith 0 .suspended o (at' 0 .between .none run);
      doorAtAlarm s = true ∧ (s.elem 0).op = some o ∧ (s.elem 0).activity = .suspended ∧ o.reasons.consent = true) ∧
    (∀ o ∈ [closing, opIn .egress .travelOpen],
      let s := busyWith 0 .active o (at' 0 .between .none run);
      doorAtAlarm s = true ∧ (s.elem 0).op = some o ∧ (s.elem 0).activity.inProgress = true ∧
        (o.kind = .egress ∨ o.kind = .closing ∧ o.mark = true)) := by
  decide +kernel

theorem test_meets_ZoneConfirmOutcomes :
    (Ready 3 run ∧ Ready 0 run ∧ unconfigured.cfg.startUp = .unconfigured ∧ run.cfg.startUp ≠ .unconfigured ∧
      run.role 0 ≠ .safety ∧ run.role 3 = .safety) ∧
    (∃ z : ZoneId, z.val + 1 = (16 : Byte).toNat ∧ run.zoneCfg z = none) ∧ 16 < (17 : Byte).toNat ∧
      (∃ z : ZoneId, z.val + 1 = (1 : Byte).toNat ∧ (run.zoneCfg z).isSome = true) ∧ (run.zone 0).fire = .normal ∧
      ((alarmed 0 run).zone 0).fire = .alarm ∧
      ((run.modZone 0 fun r => { r with fire := .confirmed }).zone 0).fire = .confirmed := by
  unfold Ready; decide +kernel

theorem test_meets_ZoneResetReturnsToNormal :
    (let s := alarmed 1 (alarmed 0 (owing 0 true .between run));
      Ready 3 s ∧ s.role 3 = .safety ∧ s.zone? 1 = some (0, zoneOf 2 .vehicle) ∧ s.cfg.startUp ≠ .unconfigured ∧
        (s.zone 0).fire ≠ .normal ∧ s.cfg.startUp = .run ∧ s.elemCfg 0 = some (doorCfg 0b01 0) ∧
        boundsZone (doorCfg 0b01 0) 0 = true ∧
        ∀ y, y ≠ 0 → boundsZone (doorCfg 0b01 0) y = true → inZones s.etu.alarmed y = false) ∧
    (run.zone 0).fire = .normal := by
  unfold Ready; decide +kernel

theorem test_meets_ConfirmTimerEscalates :
    let s := alarmed 0 run;
    ((∀ z, (s.zone z).confirm.isSome = true ↔ (s.zone z).fire = .alarm) ∧ (s.zone 0).fire = .alarm ∧
      (s.zone 0).confirm = some 0) ∧ ∃ t, step { s with pending := [.confirmTimerExpiry 0] } = .next t :=
  ⟨by decide +kernel, _, rfl⟩

/-! ### Passenger calls -/

def callOf (level : Byte) : CallFields where
  cue := 40
  level := level
  repeats := 3
  interval := 30
  expiry := 3600
  cancelKind := 0
  cancelObject := 0
  cancelPos := 0
  refs := [{ kind := 1, arg := 2 }]

def entryOf (id : Byte) (level : Nat) (st : CallState) : CallEntry where
  id := id
  cue := 41
  zones := 0b10
  level := level
  repeats := 2
  interval := 5
  expiry := some 0
  cancel := .none
  originator := some 0
  order := 1
  state := st
  timer := some 0
  expired := false

/-- A play of an entry, the port in a state with its limit due. -/
def playing (st : PaState) (e : Option CallEntry) (owed : Bool) : State :=
  run.modCsc fun c =>
    { c with
      slot := some { cue := 41, zones := 0b10, entry := e, stopOwed := owed }
      nextId := 9
      acceptCount := 9
      pa := { c.pa with state := st, timer := some 0, cue := 41, zones := 0b10, play := true } }

def paIn (st : PaState) : State := run.modPa fun a => { a with state := st }

/-- The facts about a state that the clauses about the alarm call of zone Z1 have in common; it goes to Z1 alone. -/
def callAtAlarm (s : State) : Bool :=
  decide <| ((s.port 3).rx = [] ∧ (s.port 3).canHandOn = true) ∧ s.zone? 1 = some (0, zoneOf 2 .vehicle) ∧ s.cfg.startUp = .run ∧ (s.zone 0).fire = .normal ∧
    resolveRefs s.cfg.loaded { homeDeck := some 2, trigger := some 0 } ((zoneOf 2 .vehicle).refs.take 1) = some 0b01 ∧
    (after (.zoneAlarm 3 5 1) s).rpu.events.length < 16

/-- There is room for a new entry, and no live one matches the alarm call of zone Z1. -/
def roomForCall (s : State) : Bool :=
  decide <| s.csc.live.find? (fun x => x.cue = 90 && x.zones = 0b01 && x.level = 1) = none ∧ s.csc.queue.length < 32 ∧
    s.csc.acceptCount ≠ 0xFFFFFFFF ∧ s.csc.nextId ≠ 0 ∧ ∀ x ∈ s.csc.live, x.id ≠ s.csc.nextId

/-- The alarm call merged, lost, waiting, started at once, waiting behind a play as urgent, and stopping a less urgent one. -/
theorem test_meets_ZoneAlarmIsTaken_calls :
    (let x := { entryOf 3 1 .queued with cue := 90, zones := 0b01 };
      let s := (paIn .fault).modCsc fun c => { c with queue := [x] };
      callAtAlarm s = true ∧ s.csc.live.find? (fun x => x.cue = 90 && x.zones = 0b01 && x.level = 1) = some x ∧
        s.csc.pa.state ≠ .idle) ∧
    (let s := (paIn .fault).modCsc fun c => { c with queue := List.replicate 32 (entryOf 1 4 .queued) };
      callAtAlarm s = true ∧ s.csc.live.find? (fun x => x.cue = 90 && x.zones = 0b01 && x.level = 1) = none ∧
        32 ≤ s.csc.queue.length ∧ s.csc.pa.state ≠ .idle) ∧
    (∀ s ∈ [paIn .fault, paIn .stopping, run.modPa fun a => { a with busy := true }], callAtAlarm s = true ∧ roomForCall s = true ∧
      (s.csc.pa.state = .fault ∨ s.csc.pa.state = .stopping ∨ s.csc.pa.state = .idle ∧ s.csc.pa.busy = true)) ∧
    (callAtAlarm run = true ∧ roomForCall run = true ∧ run.csc.pa.state = .idle ∧ run.csc.pa.busy = false ∧ (0b01 : ZoneSet) ≠ 0 ∧
      run.csc.stack ++ run.csc.queue = []) ∧
    ∀ st ∈ [PaState.playing, .starting], ∀ l ∈ [1, 4],
      let s := playing st (some (entryOf 1 l .playing)) false;
      callAtAlarm s = true ∧ roomForCall s = true ∧ s.csc.pa.state = st := by
  decide +kernel

/-- ZONE-RESET with nothing else in ALARM, and with one other zone whose call is made again. -/
theorem test_meets_ZoneResetReturnsToNormal_calls :
    (∀ e ∈ [some { entryOf 1 1 .playing with cancel := .zoneNormal 0 }, some (entryOf 1 1 .playing)],
      let x := { entryOf 2 3 .queued with cancel := .zoneNormal 0 };
      let s := alarmed 0 ((playing .playing e false).modCsc fun c => { c with queue := [x] });
      Ready 3 s ∧ s.zone? 1 = some (0, zoneOf 2 .vehicle) ∧ s.cfg.startUp = .run ∧ (s.zone 0).fire ≠ .normal ∧
        (∀ x ∈ s.csc.queue, x.level ≤ 1 ∨ x.zones &&& ~~~s.csc.muted ≠ 0) ∧
        (∀ y, y ≠ 0 → s.zoneCfg y ≠ none → (s.zone y).fire = .normal) ∧ s.csc.pa.state ≠ .idle) ∧
    (let s := alarmed 1 (alarmed 0 run);
      Ready 3 s ∧ s.zone? 1 = some (0, zoneOf 2 .vehicle) ∧ (s.zone 0).fire ≠ .normal ∧ s.csc.queue = [] ∧
        s.zoneCfg 1 = some (zoneOf 5 .passenger) ∧ (s.zone 1).fire ≠ .normal ∧
        (∀ x, x ≠ 1 → x ≠ 0 → s.zoneCfg x ≠ none → (s.zone x).fire = .normal) ∧
        resolveRefs s.cfg.loaded { homeDeck := some 5, trigger := some 1 } ((zoneOf 5 .passenger).refs.take 1) =
          some 0b10) := by
  unfold Ready; decide +kernel

/-- A QUEUED entry of level 2 that the unmuting of Z1 makes playable, behind a play of level 4; and a reset in SERVICE. -/
theorem test_meets_ZoneResetReturnsToNormal_unmuting :
    (let x := entryOf 1 4 .playing; let q := { entryOf 2 2 .queued with zones := 0b01 };
      let y : Play := { cue := 41, zones := 0b10, entry := some x, stopOwed := false };
      let s := alarmed 0 ((playing .playing (some x) false).modCsc fun c => { c with queue := [q] });
      Ready 3 s ∧ s.zone? 1 = some (0, zoneOf 2 .vehicle) ∧ s.cfg.startUp = .run ∧ (s.zone 0).fire ≠ .normal ∧
        (∀ y, y ≠ 0 → s.zoneCfg y ≠ none → (s.zone y).fire = .normal) ∧ s.csc.pa.state = .playing ∧
        s.csc.slot = some y ∧ y.entry = some x ∧ x.cancel ≠ .zoneNormal 0 ∧ y.stopOwed = false ∧
        q ∈ (s.csc.without (.zoneNormal 0)).queue ∧ q.state = .queued ∧ q.level < x.level ∧ 1 < q.level ∧
        q.zones &&& ~~~s.csc.muted = 0 ∧ q.zones &&& ~~~(s.csc.muted &&& ~~~zoneBit 0) ≠ 0) ∧
    (let s := service.modZone 0 fun r => { r with fire := .alarm };
      Ready 3 s ∧ s.cfg.startUp = .service ∧ s.zone? 1 = some (0, zoneOf 2 .vehicle) ∧ (s.zone 0).fire ≠ .normal) := by
  unfold Ready; decide +kernel

theorem test_meets_CallTakesItsPlace :
    (let s := run; let f := callOf 4;
      Ready 0 s ∧ s.cfg.startUp = .run ∧ callInForm f = true ∧ levelAllowed (s.role 0) f.level.toNat = true ∧
        s.cancelOf f = some .none ∧ resolveRefs s.cfg.loaded (s.callContext 0 .none) f.refs = some 0b10 ∧
        s.cancelHolds .none = true ∧
        (∀ x ∈ s.csc.live, ¬ (x.cue = f.cue ∧ x.zones = 0b10 ∧ x.level = f.level.toNat)) ∧ s.csc.queue.length < 32 ∧
        s.csc.acceptCount ≠ 0xFFFFFFFF ∧ s.csc.nextId ≠ 0 ∧ (∀ x ∈ s.csc.live, x.id ≠ s.csc.nextId) ∧
        s.csc.pa.state = .idle ∧ s.csc.pa.busy = false ∧ s.csc.live = [] ∧
        (0b10 : ZoneSet) &&& ~~~s.csc.muted ≠ 0) ∧
    ((paIn .fault).csc.pa.state = .fault ∧ (paIn .stopping).csc.pa.state = .stopping ∧
      (alarmed 0 run).cancelHolds (.zoneNormal 0) = true) ∧
    ∀ st ∈ [PaState.playing, .starting],
      let x := entryOf 1 4 .playing; let s := playing st (some x) false;
      s.csc.slot = some { cue := 41, zones := 0b10, entry := some x, stopOwed := false } ∧ s.csc.pa.state = st ∧
        (callOf 3).level.toNat < x.level ∧ x.level ≤ (callOf 4).level.toNat ∧
        (∀ y ∈ s.csc.live, ¬ (y.cue = (callOf 4).cue ∧ y.zones = 0b10 ∧ y.level = 4)) ∧
        (∀ y ∈ s.csc.live, y.id ≠ s.csc.nextId) ∧ s.csc.acceptCount ≠ 0xFFFFFFFF := by
  unfold Ready; decide +kernel

theorem test_meets_CallMergesOrIsRefused :
    (Ready 1 run ∧ Ready 3 run ∧ run.cfg.startUp = .run ∧ callInForm (callOf 3) = true ∧ callInForm (callOf 4) = true ∧
      run.role 1 = .deck ∧ (callOf 3).level.toNat < 4 ∧ run.role 3 = .safety ∧ 3 < (callOf 4).level.toNat) ∧
    (levelAllowed (run.role 1) 4 = true ∧ levelAllowed (run.role 3) 3 = true) ∧
    (let f := { callOf 4 with cancelKind := 1, cancelObject := 0, cancelPos := 2 };
      callInForm f = true ∧ run.cancelOf f = some (.leaves 0 .opened) ∧
        resolveRefs run.cfg.loaded (run.callContext 0 (.leaves 0 .opened)) f.refs = some 0b10 ∧
        (run.elem 0).position ≠ .opened) ∧
    (let f := { callOf 4 with cancelKind := 2, cancelObject := 1 };
      callInForm f = true ∧ run.cancelOf f = some (.zoneNormal 0) ∧
        resolveRefs run.cfg.loaded (run.callContext 0 (.zoneNormal 0)) f.refs = some 0b10 ∧
        inZones run.csc.muted 0 = false) ∧
    (let s := run.modCsc fun c => { c with queue := List.replicate 32 (entryOf 1 4 .queued) };
      s.cancelHolds .none = true ∧ 32 ≤ s.csc.queue.length ∧ ∀ x ∈ s.csc.live, ¬ (x.cue = (callOf 4).cue)) ∧
    (let x := { entryOf 1 4 .interval with cue := 40 }; let f := callOf 4;
      let s := run.modCsc fun c => { c with queue := [x] };
      s.cancelOf f = some .none ∧ s.cancelHolds .none = true ∧
        s.csc.live.find? (fun y => y.cue = f.cue && y.zones = 0b10 && y.level = f.level.toNat) = some x) := by
  unfold Ready; decide +kernel

theorem test_meets_CallsLeaveTheirPlaces :
    (let x := entryOf 1 4 .queued; let s := (paIn .fault).modCsc fun c => { c with queue := [x] };
      Ready 0 s ∧ s.cfg.startUp ≠ .unconfigured ∧ (1 : Byte) ≠ 0 ∧ s.csc.live.find? (fun y => y.id = 1) = some x ∧
        x.originator = some 0 ∧ x.originator ≠ some 1 ∧ s.role 1 ≠ .bridge ∧ s.role 1 ≠ .safety ∧
        s.csc.pa.state ≠ .idle ∧ (∀ y ∈ s.csc.playEntry, y.id ≠ 1) ∧ x.expiry = some 0 ∧ s.time = 0 ∧
        x.state ≠ .playing) ∧
    (let x := entryOf 1 4 .playing; let s := playing .playing (some x) false;
      Ready 0 s ∧ s.csc.live.find? (fun y => y.id = 1) = some x ∧
        s.csc.slot = some { cue := 41, zones := 0b10, entry := some x, stopOwed := false } ∧
        s.csc.pa.state = .playing ∧ (∀ z ∈ s.csc.queue ++ s.csc.stack, z.id ≠ 1) ∧ x.state = .playing) ∧
    (∀ x ∈ run.csc.live, x.id ≠ 1) ∧
    (let x := entryOf 1 4 .interval; let s := (paIn .stopping).modCsc fun c => { c with queue := [x] };
      s.csc.queue = [] ++ x :: [] ∧ x.id = 1 ∧ x.state = .interval ∧ x.timer = some 0 ∧ s.csc.pa.state = .stopping) := by
  unfold Ready; decide +kernel

def high (s : State) : State := s.modPa fun a => { a with busy := true }

theorem test_meets_BusyRunsThePlay :
    (∀ owed ∈ [true, false],
      let x := entryOf 1 4 .playing; let s := playing .starting (some x) owed;
      s.csc.slot = some { cue := 41, zones := 0b10, entry := some x, stopOwed := owed } ∧
        s.cfg.startUp ≠ .unconfigured ∧ s.csc.pa.busy = false ∧ s.csc.pa.state = .starting) ∧
    (let x := entryOf 1 4 .playing; let s := high (playing .playing (some x) false);
      s.csc.slot = some { cue := 41, zones := 0b10, entry := some x, stopOwed := false } ∧ s.csc.pa.busy = true ∧
        s.csc.queue = [] ∧ s.csc.stack = [] ∧ s.csc.pa.state = .playing ∧ x.expired = false ∧ 1 < x.repeats ∧
        0 < x.interval) ∧
    (let s := high (playing .stopping none false);
      s.csc.slot = some { cue := 41, zones := 0b10, entry := none, stopOwed := false } ∧ s.csc.pa.busy = true ∧
        s.csc.pa.state = .stopping ∧ ({ entryOf 1 4 .playing with repeats := 1 } : CallEntry).repeats ≤ 1) ∧
    (let x := entryOf 1 4 .playing; let n := { entryOf 2 3 .queued with order := 2 };
      let s := (high (playing .stopping (some x) false)).modCsc fun c => { c with queue := [n] };
      s.csc.slot = some { cue := 41, zones := 0b10, entry := some x, stopOwed := false } ∧ s.cfg.startUp = .run ∧
        s.csc.pa.busy = true ∧ s.csc.pa.state = .stopping ∧ x.expired = false ∧ s.csc.stack.length < 4 ∧
        s.csc.queue = [n] ∧ n.state = .queued ∧ n.level < x.level ∧ n.id ≠ x.id ∧ (∀ z ∈ s.csc.stack, z.id ≠ n.id) ∧
        n.zones &&& ~~~s.csc.muted ≠ 0) := by
  decide +kernel

theorem test_meets_PaFaultReturnsThePlay :
    (∀ st ∈ [PaState.starting, .playing, .stopping],
      let s := playing st (some (entryOf 1 4 .playing)) false;
      s.csc.pa.fault = false ∧ s.csc.pa.state ≠ .fault ∧ s.cfg.startUp ≠ .unconfigured ∧ s.csc.pa.state = st ∧
        s.csc.pa.timer = some 0 ∧ s.csc.queue.length < 32) ∧
    (let s := (paIn .fault).modPa fun a => { a with fault := true };
      s.csc.pa.fault = true ∧ s.csc.pa.state = .fault ∧ s.cfg.startUp ≠ .unconfigured ∧ s.csc.live = []) := by
  decide +kernel

/-! ### Reports and configuration -/

/-- E2 and then E0 in the report list. -/
def reported : State :=
  let pend : Pending := { ended := false, stage := false, alert := true };
  let s := (run.modElem 2 fun r => { r with pend := pend }).modElem 0 fun r => { r with pend := pend };
  { s with etu := { s.etu with reports := [2, 0] } }

theorem test_meets_CollectEmptiesPending :
    (Ready 1 reported ∧ Ready 0 reported ∧ reported.cfg.startUp ≠ .unconfigured ∧
      reported.elem? 2 = some (2, rampCfg) ∧ (reported.elem 2).enabled = true ∧ (reported.elem 2).listed = true ∧
      (run.elem 2).listed = false ∧ ((owing 0 false .closed run).elem 0).enabled = false) ∧
    (let s := busyWith 0 .active closing (run.modElem 0 fun r => { r with overrun := true });
      s.elem? 0 = some (0, doorCfg 0b01 0) ∧ (s.elem 0).listed = false ∧ (s.elem 0).overrun = true ∧
        (s.elem 0).op.any (fun o => o.requester = none) = true) ∧
    (reported.etu.reports = [2] ++ 0 :: [] ∧ (reported.elem 0).listed = true ∧
      reported.elemCfg 0 = some (doorCfg 0b01 0)) ∧
    (let s := { reported with rpu := { reported.rpu with masks := reported.rpu.masks.set 1 0x08 } };
      maskHas s.rpu.masks[(1 : Port)] (s.elem 0).reportClass = true ∧
        maskHas s.rpu.masks[(1 : Port)] (s.elem 2).reportClass = false) ∧
    (let s := { reported with rpu := { reported.rpu with masks := reported.rpu.masks.set 1 0 } };
      ∀ d ∈ s.etu.reports, maskHas s.rpu.masks[(1 : Port)] (s.elem d).reportClass = false) := by
  unfold Ready; decide +kernel

theorem test_meets_SetMaskReplaces :
    let s := { reported with rpu := { reported.rpu with masks := reported.rpu.masks.set 1 0x04 } };
    Ready 1 s ∧ s.cfg.startUp ≠ .unconfigured ∧ (s.port 1).owed = false ∧ (s.port 1).tx.length ≤ 13 ∧
      maskHas ((0x0C : Byte) &&& ~~~s.rpu.masks[(1 : Port)]) (s.elem 0).reportClass = true ∧
      maskHas ((0x0C : Byte) &&& ~~~s.rpu.masks[(1 : Port)]) (s.elem 2).reportClass = false ∧
      ∀ d ∈ s.etu.reports, maskHas ((0x04 : Byte) &&& ~~~s.rpu.masks[(1 : Port)]) (s.elem d).reportClass = false := by
  unfold Ready; decide +kernel

/-- An ending at a stage limit of an element with nothing pending, and with only ALERT pending under another class. -/
theorem test_meets_SetMaskReplaces_endings :
    ∀ alert ∈ [false, true],
      let o := { opIn .opening .travelOpen with stageTime := 6000, cls := 3 };
      let s := (busyWith 2 .active o run).modElem 2 fun r => { r with pend := { r.pend with alert := alert } };
      let s := { s with rpu := { s.rpu with masks := (s.rpu.masks.set 1 0x08).set 2 0x04 } };
      s.elemCfg 2 = some rampCfg ∧ (s.elem 2).op = some o ∧ (s.elem 2).activity = .active ∧
        100 * rampCfg.tTrv ≤ o.stageTime.toNat ∧ o.mark = false ∧ (s.elem 2).closureOwed = false ∧ s.slotOf 2 = none ∧
        s.waits 2 = none ∧ (s.elem 2).pend.ended = false ∧ (s.elem 2).pend.stage = false ∧
        (s.elem 2).pend.alert = alert ∧ o.cls ≠ (s.elem 2).cls ∧ maskHas s.rpu.masks[(1 : Port)] o.cls = true ∧
        maskHas s.rpu.masks[(1 : Port)] (s.elem 2).cls = false ∧ maskHas s.rpu.masks[(2 : Port)] o.cls = false := by
  decide +kernel

theorem test_meets_FetchEventRemovesOldest :
    (Ready 0 run ∧ Ready 1 run ∧ Ready 3 run ∧ run.role 1 ≠ .bridge ∧ run.role 1 ≠ .safety ∧ run.role 0 = .bridge ∧
      run.role 3 = .safety) ∧
    run.rpu.events = { kind := .powerUp, source := 0, detail := 0, time := 0, overflow := false } :: [] ∧
      ({ run with rpu := { run.rpu with events := [] } } : State).rpu.events = [] := by
  unfold Ready; decide +kernel

/-- CFG-WRITE of a station entry. -/
def writeStation : WriteFields := { sect := 2, entry := 3, flags := 1, fields := [6, 0x55] }

theorem test_meets_ConfigWriteReadsBack :
    (Ready 0 service ∧ service.cfg.startUp = .service ∧ service.role 0 = .bridge ∧ writeLengthOk writeStation = true ∧
      (∀ q, ∀ x ∈ (service.port q).tx, x.isSoftOk = false) ∧ service.cfg.committing = none) ∧
    writeEntry service.cfg.image writeStation =
        some { image with stations := image.stations.set 3 { homeDeck := 6, mask := 0x55 } } ∧
      (let s := { service with cfg := { service.cfg with committing := some 0 } }; s.cfg.committing ≠ none) ∧
      writeEntry service.cfg.image { writeStation with fields := [7, 0x55] } = none ∧
      (3 : Byte) = byteOf (3 : Port).val ∧
      (let f : WriteFields := { sect := 7, entry := 31, flags := 1, fields := [3, 3, 1, 1, 0] };
        writeLengthOk f = true ∧ (writeEntry service.cfg.image f).isSome = true) := by
  unfold Ready; decide +kernel

theorem test_meets_CommitValidatesTheImage :
    (Ready 0 service ∧ service.cfg.startUp = .service ∧ service.role 0 = .bridge ∧ service.cfg.committing = none) ∧
    (let s := { (service.modPort 0 fun r => { r with tx := [.attention 2 [1], .reserved 5 0x72] }) with
        cfg := { service.cfg with committing := some 0 } };
      s.cfg.committing = some 0 ∧ (s.port 0).tx = [.attention 2 [1]] ++ .reserved 5 0x72 :: [] ∧
        (∀ x ∈ [TxPlace.attention 2 [1]] ++ [], x.isReserved = false) ∧ (s.port 0).rx = []) ∧
    (let q : Request := { seq := 3, code := 0x71, payload := [1, 0] };
      let s := { (service.modPort 0 fun r => { r with tx := [.reserved 5 0x72], rx := [q], throttle := true }) with
        cfg := { service.cfg with committing := some 0 } };
      s.cfg.committing = some 0 ∧ (s.port 0).link = .up ∧ (s.port 0).tx = [] ++ .reserved 5 0x72 :: [] ∧
        (s.port 0).rx = [q] ∧ (Instr.cfgRead 0 3 1 0).wellFormed = true ∧
        requestOf (.cfgRead 0 3 1 0) = some (0, q.seq, q.code, q.payload)) ∧
    validate image = none ∧ image.nodes[(0 : NodeId)] = some { address := 1 } ∧
      image.nodes[(1 : NodeId)] = some { address := 2 } ∧ image.zones[(0 : ZoneId)] = some (zoneOf 2 .vehicle) ∧
      image.elements[(1 : ElemId)] = some visorCfg ∧ image.elements[(2 : ElemId)] = some rampCfg ∧
      image.interlocks[(0 : Fin 32)] ≠ none := by
  unfold Ready; decide +kernel

theorem test_meets_CommitValidatesTheImage_step :
    ImagesPass run ∧ ∃ t, step { run with pending := [.poll 1 1] } = .next t :=
  ⟨by unfold ImagesPass; decide +kernel, _, rfl⟩

/-! ### The field link and the invariants -/

def awaiting (n : NodeId) (s : State) : State := { s with flc := { s.flc with exchange := some n, served := some n } }

/-- The field driver is on. -/
def driven (s : State) : State := { s with flc := { s.flc with driving := true } }

theorem test_meets_FieldExchangeStarts :
    ((awaiting 0 run).flc.exchange ≠ none ∧ (driven run).flc.driving = true ∧
      ∀ n, (State.reset.node n).state = .unused) ∧
    (run.flc.exchange = none ∧ run.flc.driving = false ∧ (run.node 0).state ≠ .unused ∧
      ∀ m : NodeId, (run.node m).state ≠ .unused →
        ((0 : NodeId).val + 7 - run.flc.served.elim 7 Fin.val) % 8 ≤ (m.val + 7 - run.flc.served.elim 7 Fin.val) % 8) ∧
    (let s := { run with flc := { run.flc with served := some 0 } };
      s.flc.exchange = none ∧ (s.node 1).state ≠ .unused ∧
      ∀ m : NodeId, (s.node m).state ≠ .unused →
        ((1 : NodeId).val + 7 - s.flc.served.elim 7 Fin.val) % 8 ≤ (m.val + 7 - s.flc.served.elim 7 Fin.val) % 8) := by
  decide +kernel

theorem test_meets_FieldAnswerIsDecoded :
    (let s := awaiting 0 run;
      run.flc.exchange = none ∧ (driven s).flc.driving = true ∧ s.flc.exchange = some 0 ∧ s.flc.driving = false ∧
        receiveField (s.address 0) (sayField 1 0x0329) = some 0x0329 ∧ (s.node 0).state = .online ∧
        (s.node 0).inputs = some 0x0329 ∧ receiveField (s.address 0) (sayField 1 0x0328) = some 0x0328) ∧
    (∃ w ∈ [chan 0 0, chan 0 1].filterMap id,
        w.node = 0 ∧ channelOf (run.node 0).inputs w ≠ some ((0x0328 : Word16).getLsbD w.line.val)) ∧
    ((run.elem 0).activity = .idle ∧ (run.elem 0).enabled = true ∧ (run.elem 0).posSeen = true ∧
      run.waits 0 = none ∧ run.slotOf 0 = none ∧ (run.elem 0).position ≠ .between) ∧
    ((run.modNode 0 fun r => { r with state := .lost, inputs := none }).node 0).state = .lost ∧
    (let s := awaiting 1 run;
      s.flc.exchange = some 1 ∧ receiveField (s.address 1) (sayField 2 0b0010) = some 0b0010 ∧
        unitInstalled (s.unitCfg 0) = true ∧ (s.unit 0).state ≠ .fault ∧
        (s.modNode 1 fun r => { r with inputs := some 0b0010 }).input (s.unitCfg 0).fault = some true ∧
        s.input (s.unitCfg 0).fault ≠ some true) ∧
    (∀ st ∈ [UnitState.ready, .serving],
      let s := awaiting 1 (withUnit 0 st (run.modNode 1 fun r => { r with inputs := some 0b0001 }));
      receiveField (s.address 1) (sayField 2 0) = some 0 ∧ (s.unit 0).state = st ∧
        (s.modNode 1 fun r => { r with inputs := some 0 }).input (s.unitCfg 0).running = some false ∧
        s.input (s.unitCfg 0).running ≠ some false ∧
        (s.modNode 1 fun r => { r with inputs := some 0 }).input (s.unitCfg 0).fault ≠ some true) ∧
    (let s := awaiting 1 (withUnit 0 .starting run);
      receiveField (s.address 1) (sayField 2 0b0001) = some 0b0001 ∧ (s.unit 0).state = .starting ∧
        (s.modNode 1 fun r => { r with inputs := some 0b0001 }).input (s.unitCfg 0).running = some true ∧
        s.input (s.unitCfg 0).running ≠ some true ∧
        (s.modNode 1 fun r => { r with inputs := some 0b0001 }).input (s.unitCfg 0).fault ≠ some true ∧
        (s.unit 0).idleTimer = none ∧ s.dpm.queue = [] ∧ ∀ v, (s.unit v).holders = []) := by
  decide +kernel

theorem test_meets_LimitsMoveTheOperation :
    ∀ k ∈ [OpKind.opening, .egress], ∀ x ∈ [((0x032A : Word16), Position.opened), (0x0329, .closed), (0x032B, .conflict)],
      let c := doorCfg 0b01 0;
      let o := opIn k .travelOpen;
      let s := awaiting 0 ((busyWith 0 .active o (at' 0 .between .none run)).modNode 0 fun r =>
        { r with inputs := some 0x0328 });
      let now := s.modNode 0 fun r => { r with inputs := some x.1 };
      decodePosition (now.input c.closedLimit) (now.input c.openLimit) = x.2 ∧ s.flc.exchange = some 0 ∧
        s.flc.driving = false ∧
        receiveField (s.address 0) (sayField 1 x.1) = some x.1 ∧ s.elemCfg 0 = some c ∧ isDoor c = true ∧
        lockBound c = false ∧ (s.elem 0).lock = .none ∧ (s.elem 0).op = some o ∧ (s.elem 0).activity = .active ∧
        o.stage = .travelOpen ∧ o.kind ≠ .closing ∧ o.mark = false ∧ (s.elem 0).closureOwed = false ∧
        s.doorAlarmed c = false ∧ s.slotOf 0 = none ∧ s.waits 0 = none ∧
        (s.elem 0).position = decodePosition (s.input c.closedLimit) (s.input c.openLimit) ∧ x.2 ≠ (s.elem 0).position ∧
        (∀ d, d ≠ 0 → (s.elemCfg d).all fun dc =>
          [dc.closedLimit, dc.openLimit, dc.locked, dc.unlocked, dc.obstruction].all fun ch =>
            now.input ch = s.input ch) ∧
        (∀ u, now.input (s.unitCfg u).running = s.input (s.unitCfg u).running ∧
          now.input (s.unitCfg u).fault = s.input (s.unitCfg u).fault) ∧
        (∀ i : Fin 32, (s.cfg.loaded.interlocks[i]).all fun ic => ic.prerequisite ≠ 0) ∧ (elementOutputs c).Nodup := by
  decide +kernel

theorem test_meets_FieldMissLosesNode :
    (let s := awaiting 1 run;
      s.flc.exchange = some 1 ∧ receiveField (s.address 1) [] = none ∧ s.flc.driving = false ∧
        (driven s).flc.driving = true ∧ (driven s).flc.exchange = some 1 ∧
        (s.node 1).state = .online ∧ (s.node 1).misses < 2 ∧
        ((s.modNode 1 fun r => { r with state := .seeking }).node 1).state ≠ .online) ∧
    (let s := awaiting 1 (run.modNode 1 fun r => { r with misses := 2 });
      (s.node 1).state = .online ∧ (s.node 1).misses = 2 ∧ unitInstalled (s.unitCfg 0) = true ∧
        (s.unitCfg 0).startOut = some { node := 1, line := 0 } ∧ (s.unit 0).state ≠ .fault) ∧
    (let s := awaiting 0 (run.modNode 0 fun r => { r with misses := 2 });
      (s.node 0).misses = 2 ∧ s.elemCfg 0 = some (doorCfg 0b01 0) ∧
        (doorCfg 0b01 0).closedLimit = some { node := 0, line := 0 } ∧ (s.node 0).inputs ≠ none) := by
  decide +kernel

/-- The ramp E2 alone leaves OPEN, with a call that ends there, and with a binding of the position that it enters; and its first
decode. -/
theorem test_meets_FieldAnswerIsDecoded_bindings :
    ∀ seen ∈ [true, false], ∀ entered ∈ [Position.closed, .between],
      let b : BindingCfg :=
        { element := 2, entry := .closed, cue := 40, nRefs := 1, refs := [{ kind := 6, arg := 0 }, noRef, noRef, noRef]
          level := 4, repeats := 1, interval := 0, expiry := 0, cancel := true };
      let bits : Word16 := if entered = .closed then 0x02A9 else 0x0229;
      let s := awaiting 0 (run.modElem 2 fun r => { r with posSeen := seen });
      let s := { s with
        cfg := { s.cfg with loaded := { image with bindings := Image.blank.bindings.set 3 (some b) } }
        csc := { s.csc with queue := [{ entryOf 1 4 .queued with cancel := .leaves 2 .opened }] } };
      let now := s.modNode 0 fun r => { r with inputs := some bits };
      s.flc.exchange = some 0 ∧ s.flc.driving = false ∧ receiveField (s.address 0) (sayField 1 bits) = some bits ∧
        s.elemCfg 2 = some rampCfg ∧ (s.elem 2).position = .opened ∧
        decodePosition (s.input rampCfg.closedLimit) (s.input rampCfg.openLimit) = .opened ∧
        decodePosition (now.input rampCfg.closedLimit) (now.input rampCfg.openLimit) = entered ∧
        (∀ d, d ≠ 2 → (s.elemCfg d).all fun dc =>
          [dc.closedLimit, dc.openLimit, dc.locked, dc.unlocked, dc.obstruction].all fun ch => now.input ch = s.input ch) ∧
        (s.elem 2).posSeen = seen ∧ s.cfg.startUp = .run ∧ s.cfg.loaded.bindings[(3 : Fin 16)] = some b ∧
        (∀ j : Fin 16, j ≠ 3 → s.cfg.loaded.bindings[j] = none) ∧ b.element = 2 ∧
        (b.entry = entered ∨ entered = .between ∧ (s.csc.without (.leaves 2 .opened)).live = []) ∧
        (s.zoneCfg rampCfg.homeZone).map (·.deck) = some 2 ∧
        resolveRefs s.cfg.loaded { homeDeck := some 2, trigger := some rampCfg.homeZone } (b.refs.take b.nRefs) =
          some 0b01 := by
  decide +kernel

/-- The ramp E2 alone leaves OPEN, or a second limit of it turns true, with an operation of the visor E1 or of the door E3 that needs
it OPEN. -/
theorem test_meets_LimitsMoveTheOperation_interlock :
    ∀ x ∈ [((1 : ElemId), visorCfg, (0 : Fin 32)), (3, doorCfg 0b10 9, 1)], ∀ a ∈ [Activity.active, .suspended, .startPending],
      let o := opIn .opening (if a = .startPending then .prep else .travelOpen);
      let w : Waiter := { elem := x.1, weight := 2, path := 0b0011, multipath := true, kind := .start };
      let s := awaiting 0 ((busyWith x.1 a o run).setQueue (if a = .startPending then [w] else []));
      let now := s.modNode 0 fun r => { r with inputs := some 0x0229 };
      s.flc.exchange = some 0 ∧ s.flc.driving = false ∧ receiveField (s.address 0) (sayField 1 0x0229) = some 0x0229 ∧
        s.elemCfg 2 = some rampCfg ∧ s.elemCfg x.1 = some x.2.1 ∧ x.1 ≠ 2 ∧ (s.elem x.1).op = some o ∧ o.mark = false ∧
        (s.cfg.loaded.interlocks[x.2.2].any fun i =>
          i.dependent = x.1 && i.prerequisite = 2 && (i.opKind = .onAny || i.opKind = .onOpen)) = true ∧
        o.kind = .opening ∧
        (s.elem 2).position = decodePosition (s.input rampCfg.closedLimit) (s.input rampCfg.openLimit) ∧
        lockBound rampCfg = false ∧
        decodePosition (now.input rampCfg.closedLimit) (now.input rampCfg.openLimit) ≠ (s.elem 2).position ∧
        ([x.2.1.closedLimit, x.2.1.openLimit, x.2.1.locked, x.2.1.unlocked, x.2.1.obstruction].all fun ch =>
          now.input ch = s.input ch) = true ∧
        (∀ u, now.input (s.unitCfg u).running = s.input (s.unitCfg u).running ∧
          now.input (s.unitCfg u).fault = s.input (s.unitCfg u).fault) ∧
        (s.elem x.1).activity = a ∧ (a ≠ .startPending → s.waits x.1 = none) ∧ s.slotOf x.1 = none ∧
        (∀ v ∈ s.dpm.queue, ∀ u, inPath v.path u = true → (s.unit u).state ≠ .ready ∧ (s.unit u).state ≠ .serving) ∧
        (now.modElem 2 fun r => { r with position := .between }).failingEntry x.1 o.kind ≠ none ∧
        (elementOutputs x.2.1).Nodup ∧
        (∀ y, y ≠ x.1 → (s.elemCfg y).all fun yc => (elementOutputs yc).all fun w => !(elementOutputs x.2.1).contains w) := by
  decide +kernel

/-- The same with the ramp reaching the OPEN that is needed, so that no entry fails. -/
theorem test_meets_LimitsMoveTheOperation_satisfied :
    ∀ a ∈ [Activity.active, .suspended, .startPending],
      let o := opIn .opening .travelOpen;
      let s := awaiting 0 (busyWith 1 a o (at' 2 .between .none (run.modNode 0 fun r => { r with inputs := some 0x0229 })));
      let t := after (.fieldFrameReceived (sayField 1 0x0329) .etuFirst) s;
      receiveField (s.address 0) (sayField 1 0x0329) = some 0x0329 ∧
        (s.elem 2).position = decodePosition (s.input rampCfg.closedLimit) (s.input rampCfg.openLimit) ∧
        (s.elem 1).activity = a ∧ (s.elem 1).op = some o ∧ (t.elem 2).position = .opened ∧
        t.failingEntry 1 .opening = none := by
  decide +kernel

/-- The door E0 alone leaves CLOSED with its boundary zone alarmed: disabled, at rest, and with an operation, by the mark. -/
theorem test_meets_LimitsMoveTheOperation_leaving :
    ∀ x ∈ [((0x0328 : Word16), Position.between), (0x032A, .opened), (0x032B, .conflict)],
      let c := doorCfg 0b01 0;
      let quiet := fun s : State => { awaiting 0 (alarmed 0 s) with rpu := { run.rpu with events := [] } };
      let states : List State :=
        [run.modElem 0 fun r => { r with enabled := false }, owing 0 false .closed run, run,
          busyWith 0 .ended { opIn .closing .travelClose with code := .done } run,
          busyWith 0 .active { closing with stage := .warn } run, busyWith 0 .active (opIn .egress .travelOpen) run];
      ∀ s ∈ states.map quiet,
        let now := s.modNode 0 fun r => { r with inputs := some x.1 };
        s.flc.exchange = some 0 ∧ s.flc.driving = false ∧ receiveField (s.address 0) (sayField 1 x.1) = some x.1 ∧
          s.elemCfg 0 = some c ∧ isDoor c = true ∧ lockBound c = false ∧ (s.elem 0).lock = .none ∧ s.doorAlarmed c = true ∧
          (s.elem 0).position = .closed ∧ decodePosition (s.input c.closedLimit) (s.input c.openLimit) = .closed ∧
          decodePosition (now.input c.closedLimit) (now.input c.openLimit) = x.2 ∧ s.slotOf 0 = none ∧ s.waits 0 = none ∧
          (∀ d, d ≠ 0 → (s.elemCfg d).all fun dc =>
            [dc.closedLimit, dc.openLimit, dc.locked, dc.unlocked, dc.obstruction].all fun ch =>
              now.input ch = s.input ch) ∧
          (∀ k : Fin 32, (s.cfg.loaded.interlocks[k]).all fun ic => ic.prerequisite ≠ 0) ∧
          (after (.fieldFrameReceived (sayField 1 x.1) .etuFirst) s).rpu.events.length < 16 := by
  decide +kernel

/-- The door E0, alone on its node N0, leaves CLOSED by the third miss. -/
theorem test_meets_LimitsMoveTheOperation_losing :
    let c := doorCfg 0b01 0;
    let quiet := fun s : State =>
      { (awaiting 0 (alarmed 0 s)).modNode 0 fun r => { r with misses := 2 } with
        cfg := { s.cfg with loaded := { image with elements := Image.blank.elements.set 0 (some c) } }
        rpu := { run.rpu with events := [] } };
    ∀ s ∈ [run.modElem 0 fun r => { r with enabled := false }, run,
        busyWith 0 .active { closing with stage := .warn } run].map quiet,
      let now := s.modNode 0 fun r => { r with inputs := none };
      s.flc.exchange = some 0 ∧ s.flc.driving = false ∧ (s.node 0).state = .online ∧ (s.node 0).misses = 2 ∧
        s.elemCfg 0 = some c ∧ s.doorAlarmed c = true ∧ (s.elem 0).position = .closed ∧ (s.elem 0).lock = .none ∧
        decodePosition (s.input c.closedLimit) (s.input c.openLimit) = .closed ∧
        decodePosition (now.input c.closedLimit) (now.input c.openLimit) = .unknown ∧ s.slotOf 0 = none ∧
        s.waits 0 = none ∧ (∀ d, d ≠ 0 → s.elemCfg d = none) ∧
        (∀ k : Fin 32, (s.cfg.loaded.interlocks[k]).all fun ic => ic.prerequisite ≠ 0) ∧
        (after (.fieldAnswerTimeout .etuFirst) s).rpu.events.length < 16 := by
  decide +kernel

/-- The visor E1 as it takes MOVED by its lock state, REGAINED, nothing at a first decode, and CONFLICT at one: at rest with and without an
ALERT pending, ENDED, disabled, and with its operation in progress. -/
theorem test_meets_FieldAnswerIsDecoded_alerts :
    let unseen := fun r : ElemRun => { r with position := .unknown, posSeen := false };
    let settings : List (ElemRun → ElemRun) :=
      [id, fun r => { r with pend := { r.pend with alert := true } },
        fun r => { r with activity := .ended, op := some { opIn .opening .travelOpen with code := .done } },
        fun r => { r with enabled := false },
        fun r => { r with activity := .active, op := some (opIn .opening .travelOpen) }];
    let changes : List ((ElemRun → ElemRun) × Word16 × Option AlertReason) :=
      [(id, 0x0349, some .moved), (fun r => { r with position := .unknown }, 0x0321, some .regained),
        (unseen, 0x0321, none), (unseen, 0x0339, some .conflict)];
    ∀ f ∈ settings, ∀ x ∈ changes,
      let s := awaiting 0 (run.modElem 1 fun r => f (x.1 r));
      let t := after (.fieldFrameReceived (sayField 1 x.2.1) .etuFirst) s;
      s.flc.exchange = some 0 ∧ s.flc.driving = false ∧ receiveField (s.address 0) (sayField 1 x.2.1) = some x.2.1 ∧
        s.elemCfg 1 = some visorCfg ∧ s.waits 1 = none ∧ s.slotOf 1 = none ∧
        alertDue visorCfg (s.elem 1) (t.elem 1) = x.2.2 := by
  decide +kernel

/-- The visor E1 loses its position and its lock state together by the third miss. -/
theorem test_meets_FieldMissLosesNode_alert :
    let s := awaiting 0 (run.modNode 0 fun r => { r with misses := 2 });
    let t := after (.fieldAnswerTimeout .etuFirst) s;
    (s.elem 1).enabled = true ∧ (s.elem 1).activity = .idle ∧ s.waits 1 = none ∧ s.slotOf 1 = none ∧
      alertDue visorCfg (s.elem 1) (t.elem 1) = some .lost ∧ (t.elem 1).alertReason = .lost := by
  decide +kernel

/-- PU0 SERVING these holders and alone on N1, which has missed twice, with PU1 on N2 in a state. -/
def missing (hs : List Holder) (other : UnitState) (s : State) : State :=
  let s := (withUnit 1 other s).modUnit 0 fun r => { r with state := .serving, holders := hs };
  let loaded : Image :=
    { image with
      nodes := image.nodes.set 2 (some { address := 3 })
      units := image.units.set 1 { startOut := chan 2 0, running := chan 2 0, fault := chan 2 1 } };
  awaiting 1 { s.modNode 1 fun r => { r with misses := 2 } with cfg := { s.cfg with loaded := loaded } }

/-- The operation of a holder of PU0. -/
def holding : OpRec := { opIn .opening .travelOpen with slot := some 0 }

theorem test_meets_FieldMissLosesNode_unit_alone :
    let s := missing [] .starting run;
    s.flc.exchange = some 1 ∧ s.flc.driving = false ∧ (s.node 1).state = .online ∧ (s.node 1).misses = 2 ∧
      (∀ e, (s.elemCfg e).all fun c =>
        ([c.closedLimit, c.openLimit, c.locked, c.unlocked, c.obstruction].filterMap id).all fun w => w.node ≠ 1) ∧
      unitInstalled (s.unitCfg 0) = true ∧ (s.unitCfg 0).startOut = some { node := 1, line := 0 } ∧
      (∀ v, v ≠ 0 → ∀ w ∈ [(s.unitCfg v).startOut, (s.unitCfg v).running, (s.unitCfg v).fault].filterMap id, w.node ≠ 1) ∧
      (s.unit 0).state = .serving ∧
      ∀ c ∈ [visorCfg, rampCfg], ({ node := 1, line := 0 } : Chan) ∉ elementOutputs c := by
  decide +kernel

/-- What SlotsHeldOnce asks of the users of slots, in a form that decides. -/
def usersInProgress (s : State) : Bool :=
  decide (s.slotUsers.Nodup) &&
    (s.slotUsers.all fun e => (s.elem e).activity.inProgress && (s.elemCfg e).any fun c => !isDoor c) &&
    elements.all fun e => !(s.elem e).pend.ended

theorem slotsHeldOnce_of_users {s : State} (h : usersInProgress s = true) : SlotsHeldOnce s := by
  simp only [usersInProgress, Bool.and_eq_true, decide_eq_true_eq, List.all_eq_true] at h
  refine ⟨h.1.1, fun e he => ⟨(h.1.2 e he).1, ?_⟩, fun e he => ?_⟩
  · obtain ⟨c, hc, hd⟩ := (Option.any_eq_true _ _).1 (h.1.2 e he).2
    exact ⟨c, hc, by simpa using hd⟩
  · exact absurd he (by simpa using h.2 e (List.mem_finRange e))

/-- The ramp E2 and the visor E1 on PU0, by the multipath flag and by whether the other unit can still become ready. -/
theorem test_meets_FieldMissLosesNode_holders :
    ∀ other ∈ [UnitState.starting, .fault], ∀ m ∈ [true, false], ∀ a ∈ [Activity.active, .suspended],
      let hs : List Holder :=
        [{ elem := 2, weight := 1, path := 0b0011, multipath := m }, { elem := 1, weight := 1, path := 0b0001, multipath := true }];
      let s := missing hs other (busyWith 1 .active holding (busyWith 2 a holding run));
      usersInProgress s = true ∧ (s.unit 0).holders = hs ∧ (s.unit 1).state = other ∧ (s.elem 2).activity = a ∧
        (∀ h ∈ hs, ((s.elem h.elem).activity = .active ∨ (s.elem h.elem).activity = .suspended) ∧
          (s.elem h.elem).op = some holding) ∧
        s.dpm.queue = [] ∧
        (∀ h ∈ hs, ∀ v, v ≠ 0 → inPath h.path v = true → (s.unit v).state = .starting ∨ (s.unit v).state = .fault) := by
  decide +kernel

/-- The ramp E2 on PU0, and the visor E1 waiting for PU1 to start. -/
theorem test_meets_FieldMissLosesNode_waiter :
    let h : Holder := { elem := 2, weight := 1, path := 0b0011, multipath := true };
    let w : Waiter := { elem := 1, weight := 2, path := 0b0011, multipath := true, kind := .start };
    let s := missing [h] .starting
      ((busyWith 1 .startPending (opIn .opening .prep) (busyWith 2 .active holding run)).setQueue [w]);
    usersInProgress s = true ∧ s.dpm.queue = [w] ∧ (s.unit 0).holders = [h] ∧
      (∀ path ∈ [w.path, h.path], ∀ v, v ≠ 0 → inPath path v = true → (s.unit v).state = .starting) ∧
      inPath w.path 1 = true ∧ (1 : UnitId) ≠ 0 := by
  decide +kernel

/-- A holder and a waiter, in a state that steps. -/
theorem test_meets_QueuesKeepCapacity :
    let w : Waiter := { elem := 1, weight := 2, path := 0b0011, multipath := true, kind := .start };
    let s := { busyWith 1 .startPending (opIn .opening .prep) (serving [w]) with pending := [.poll 1 1] };
    SlotsHeldOnce s ∧ ∃ t, step s = .next t :=
  ⟨slotsHeldOnce_of_users (by decide +kernel), _, rfl⟩

/-- The small installation keeps every invariant, with the queues at their capacities too. -/
theorem test_meets_the_invariants :
    let s := { (run.modPort 0 fun r =>
        { r with rx := List.replicate 8 { seq := 0, code := 1, payload := [] }
                 tx := .reserved 0 1 :: List.replicate 15 (.attention 3 []) }) with pending := [.poll 1 1] };
    (Bounded s ∧ AlarmsAgree (alarmed 0 s) ∧ OpsMatchActivity s ∧ HoldersUp s ∧ OrphanTimersRun s ∧ SlotsInCapacity s ∧
      ReportsListed s) ∧ s.flc.driving = false ∧ ∃ t, step s = .next t :=
  ⟨by unfold Bounded AlarmsAgree OpsMatchActivity HoldersUp OrphanTimersRun SlotsInCapacity ReportsListed; decide +kernel,
    rfl, _, rfl⟩

/-! ### One step of a command -/

theorem test_reset_clears_the_alert_and_the_seen_flags :
    let t := after (.reset { modeHigh := false, roleA := 0b1110, roleB := 0b1001 })
      (run.modElem 1 fun r => { r with alertReason := .moved, lockSeen := true });
    ((t.elem 1).alertReason, (t.elem 1).posSeen, (t.elem 1).lockSeen, (t.elem 2).lockSeen) = (.none, false, false, true) := by
  decide +kernel

theorem test_start_waits_and_starts_the_unit :
    let t := after (.start 0 5 (startOf 1 1)) (heldBy 1 0 run);
    (t.port 0).tx = [.response 5 0x12 [Answer.accepted.code, 1, 1]] ∧ (t.elem 1).activity = .startPending ∧ (t.unit 0).state = .starting ∧
      (t.node 1).outputs = 0b01 := by
  decide +kernel

theorem test_start_is_granted_and_unlocks :
    let t := after (.start 0 5 (startOf 1 1)) (withUnit 0 .ready (heldBy 1 0 run));
    (t.elem 1).op.map OpRec.stage = some .unlock ∧ (t.unit 0).state = .serving ∧ (t.node 0).outputs = 0b01000000 ∧
      t.etu.reports = [1] := by
  decide +kernel

theorem test_start_refused_by_interlock :
    let t := after (.start 0 5 (startOf 1 1)) (heldBy 1 0 (at' 2 .closed .none run));
    (t.port 0).tx = [.response 5 0x12 [Answer.interlock.code, 0]] ∧ (t.elem 1).activity = .idle := by
  decide +kernel

theorem test_claim_by_a_deck_station :
    ((after (.claim 1 5 2) run).elem 2).hold = .held 1 ∧ ((after (.claim 2 5 2) run).elem 2).hold = .none := by
  decide +kernel

theorem test_zone_alarm_closes_the_open_door :
    let t := after (.zoneAlarm 3 5 1) (at' 0 .opened .none run);
    (t.zone 0).fire = .alarm ∧ (t.elem 0).activity = .active ∧ (t.elem 0).op.map OpRec.stage = some .warn ∧
      (t.elem 0).closureOwed = true ∧ t.csc.pa.state = .starting ∧ t.csc.pa.cue = 90 ∧ (t.node 0).outputs = 0b100 := by
  decide +kernel

theorem test_field_answer_ends_the_travel :
    let s := awaiting 0 (busyWith 0 .active (opIn .opening .travelOpen) (at' 0 .between .none run));
    let t := after (.fieldFrameReceived (sayField 1 0x032A) .etuFirst) s;
    (t.elem 0).position = .opened ∧ (t.elem 0).activity = .ended ∧ (t.elem 0).last.code = .done ∧
      t.etu.reports = [0] ∧ (t.node 0).outputs = 0 := by
  decide +kernel

/-- A marked CLOSE in WARN at CLOSED turns CONFLICT: the flag that the change sets is cleared by the ending (R111, R113). -/
theorem test_conflict_on_leaving_closed_clears_the_flag :
    let o := { closing with stage := .warn };
    let s := awaiting 0 (alarmed 0 (busyWith 0 .active o run));
    let t := after (.fieldFrameReceived (sayField 1 0x032B) .etuFirst) s;
    (t.elem 0).closureOwed = false ∧ (t.elem 0).last.code = .sensorConflict ∧
      t.rpu.events.map EventEntry.kind = [.powerUp, .closureFailed] := by
  decide +kernel

theorem test_exchange_sends_the_outputs_and_drops_the_driver :
    let s := run.modNode 0 fun r => { r with outputs := 0x0106 };
    let t := after .fieldExchangeStart s;
    t.flc.exchange = some 0 ∧ t.flc.driving = false ∧ t.flc.ftxd = fieldChars 1 0x01 0x0106 ∧
      (startOut 0 s).flc.driving = true ∧ after (.fieldAnswerTimeout .etuFirst) (driven t) = driven t := by
  decide +kernel

theorem test_third_miss_loses_the_node :
    let t := after (.fieldAnswerTimeout .etuFirst) (awaiting 1 (run.modNode 1 fun r => { r with misses := 2 }));
    (t.node 1).state = .lost ∧ (t.unit 0).state = .fault ∧ (t.unit 1).reason = .link ∧
      t.rpu.events.map EventEntry.kind = [.powerUp, .nodeLost, .puFault, .puFault] := by
  decide +kernel

theorem test_call_starts_a_play :
    let t := after (.call 0 5 (callOf 4)) run;
    t.csc.pa.state = .starting ∧ t.csc.pa.zones = 0b10 ∧ t.csc.nextId = 2 ∧
      (t.port 0).tx = [.response 5 0x50 [Answer.accepted.code, 1, 0]] := by
  decide +kernel

theorem test_stage_timer_starts_the_close :
    let s := busyWith 0 .active { opIn .closing .warn with stageTime := 500 } (at' 0 .opened .none run);
    (after (.stageTimerExpiry 0) s).node 0 = { run.node 0 with outputs := 0b110 } := by
  decide +kernel

theorem test_collect_next_takes_the_oldest :
    let t := after (.collectNext 0 5) reported;
    t.etu.reports = [0] ∧ (t.elem 2).listed = false ∧ (t.elem 0).listed = true := by
  decide +kernel

theorem test_collect_of_a_closure_clears_overrun :
    let s := busyWith 0 .active closing (run.modElem 0 fun r => { r with overrun := true });
    let t := after (.collect 0 5 0) s;
    (t.elem 0).overrun = false ∧ (t.elem 0).op = some closing ∧
      (t.port 0).tx = [.response 5 0x60 (Answer.notPending.code :: statusRecord 0 (doorCfg 0b01 0) (s.elem 0))] := by
  decide +kernel

theorem test_pause_is_lost_while_the_driver_is_on :
    ((after (.pauseReceived 0) run).port 0).paused = true ∧
      ((after (.pauseReceived 0) (withPort 0 fun r => { r with sending := true })).port 0).paused = false := by
  decide +kernel

theorem test_request_behind_a_frame_is_handed_on :
    let t := after (.txFrameSent 0 { modeHigh := false, roleA := 0b1110, roleB := 0b1001 })
      (withPort 0 fun r =>
        { r with tx := [.response 1 1 [0]], sending := true, throttle := true, rx := [{ seq := 4, code := 1, payload := [] }] });
    (t.port 0).tx = [.response 4 1 [0]] ∧ (t.port 0).rx = [] ∧ (t.port 0).waiting = some .cont := by
  decide +kernel

theorem test_commit_of_the_installation :
    let s := { (service.modPort 0 fun r => { r with tx := [.reserved 5 0x72] }) with
      cfg := { service.cfg with committing := some 0, valid := false } };
    let t := after .cfgCommitDone s;
    t.cfg.valid = true ∧ t.cfg.committing = none ∧ (t.port 0).tx = [.response 5 0x72 [0]] := by
  decide +kernel

theorem test_soft_reset_restarts_in_run :
    let t := after (.txFrameSent 0 { modeHigh := false, roleA := 0b1110, roleB := 0b1001 })
      (withPort 0 fun r => { r with tx := [.softResetOk 1], sending := true });
    t.cfg.startUp = .run ∧ t.rpu.events.map EventEntry.kind = [.softReset] ∧ (t.node 0).state = .seeking ∧
      (t.elem 1).lock = .unknown ∧ (t.port 3).role = .safety := by
  decide +kernel

end Sys2Proof.Tests
end

/-!
Holds and station authority (R61 to R75): what every step keeps of holds, link flags and orphan timers, and what CLAIM,
RELEASE, GRANT, REVOKE, the orphan timer, a first POLL and the silence timer do.
-/

namespace Sys2Proof.Machine.Authority

/-! ### What leaves holds and links alone -/

/-- Links, link flags and holds are as they were, and the same orphan timers run. -/
structure HoldsKept (s t : State) : Prop where
  link   : ∀ p, (t.port p).link = (s.port p).link
  linkUp : ∀ p, (t.auth p).linkUp = (s.auth p).linkUp
  orphan : ∀ p, (t.auth p).orphan.isSome = (s.auth p).orphan.isSome
  hold   : ∀ e, (t.elem e).hold = (s.elem e).hold

theorem HoldsKept.refl (s : State) : HoldsKept s s := ⟨fun _ => rfl, fun _ => rfl, fun _ => rfl, fun _ => rfl⟩

theorem HoldsKept.trans {a b c : State} (h : HoldsKept a b) (k : HoldsKept b c) : HoldsKept a c :=
  ⟨fun p => (k.link p).trans (h.link p), fun p => (k.linkUp p).trans (h.linkUp p),
    fun p => (k.orphan p).trans (h.orphan p), fun e => (k.hold e).trans (h.hold e)⟩

/-- A change outside the ports, the element records and the authority records. -/
theorem HoldsKept.of_same_tables {s t : State} (hp : t.ports = s.ports) (ha : t.etu.auth = s.etu.auth)
    (he : t.etu.elems = s.etu.elems) : HoldsKept s t := by
  constructor <;> intro i
  · unfold State.port; rw [hp]
  · unfold State.auth; rw [ha]
  · unfold State.auth; rw [ha]
  · unfold State.elem; rw [he]

theorem modPort_holdsKept (s : State) (p : Port) (f : PortRec → PortRec) (hf : ∀ r, (f r).link = r.link) :
    HoldsKept s (s.modPort p f) := by
  refine ⟨fun q => ?_, fun _ => rfl, fun _ => rfl, fun _ => rfl⟩
  rw [modPort_port]
  split
  · exact hf _
  · rfl

theorem modElem_holdsKept (s : State) (e : ElemId) (f : ElemRun → ElemRun) (hf : ∀ r, (f r).hold = r.hold) :
    HoldsKept s (s.modElem e f) := by
  refine ⟨fun _ => rfl, fun _ => rfl, fun _ => rfl, fun d => ?_⟩
  rw [modElem_elem]
  split
  · exact hf _
  · rfl

theorem holdsKept_of_worked {s t : State} (h : Worked s t) : HoldsKept s t := by
  have ha : ∀ p, t.auth p = s.auth p := fun p => by unfold State.auth; rw [h.auth]
  exact ⟨fun p => (h.grew p).kept.link, fun p => by rw [ha], fun p => by rw [ha], h.hold⟩

theorem holdsKept_of_called {s t : State} (h : Called s t) : HoldsKept s t := holdsKept_of_worked h.toWorked

theorem holdsKept_of_reported {s t : State} (h : Reported s t) : HoldsKept s t := holdsKept_of_called h.toCalled

theorem raise_holdsKept (s : State) (k : EventKind) (source : Byte) (detail : Word16) :
    HoldsKept s (s.raise k source detail) := holdsKept_of_reported (raise_reported s k source detail)

theorem finishReports_holdsKept (s0 s : State) : HoldsKept s (finishReports s0 s) :=
  (HoldsKept.of_same_tables (s := s) (t := relisted s0 s) rfl rfl rfl).trans
    (holdsKept_of_reported (finishReports_reported s0 s))

theorem place_link (seq : Byte) (reply : Reply) (r : PortRec) : (r.place seq reply).link = r.link := by
  cases reply <;> rfl

theorem popRequest_link (r : PortRec) : r.popRequest.link = r.link := by
  unfold PortRec.popRequest
  dsimp only
  split <;> rfl

theorem receive_link (q : Request) (r : PortRec) : (r.receive q).link = r.link := by
  unfold PortRec.receive
  dsimp only
  rw [apply_ite PortRec.link]
  exact ite_self _

theorem frameLeaves_link (r : PortRec) : r.frameLeaves.link = r.link := by
  unfold PortRec.frameLeaves
  dsimp only
  split <;> rfl

theorem tick_holdsKept (s : State) : HoldsKept s (tick s) := by
  constructor <;> intro i
  · rw [tick_port]; rfl
  · rw [tick_auth]; rfl
  · rw [tick_auth]; simp [AuthRec.tick, tickTimer]
  · rw [tick_elem]; rfl

/-! ### The invariant -/

/-- A hold is HELD only by an UP port, and an orphan timer runs exactly while its orphan set is not empty. -/
def HoldsAgree (s : State) : Prop := HoldersUp s ∧ OrphanTimersRun s

theorem HoldsKept.agree {s t : State} (k : HoldsKept s t) (h : HoldsAgree s) : HoldsAgree t := by
  obtain ⟨⟨flags, held⟩, timers⟩ := h
  refine ⟨⟨fun p => ?_, fun e p he => ?_⟩, fun p => ?_⟩
  · rw [k.linkUp, k.link]; exact flags p
  · rw [k.link]; exact held e p (by rw [← k.hold]; exact he)
  · simp only [k.orphan, k.hold]; exact timers p

/-- A hold that is NONE, or HELD by an UP port, may be set on any element (R63, R74). -/
theorem setHold_agree (e : ElemId) (h : Hold) (s : State) (hno : ∀ q, h ≠ .orphaned q)
    (hup : ∀ q, h = .held q → (s.port q).link = .up) (ha : HoldsAgree s) : HoldsAgree (setHold e h s) := by
  obtain ⟨⟨flags, held⟩, timers⟩ := ha
  obtain ⟨-, -, hports, -⟩ := setHold_else e h s
  have hport : ∀ q, (setHold e h s).port q = s.port q := fun q => by unfold State.port; rw [hports]
  refine ⟨⟨fun p => ?_, fun d p hd => ?_⟩, fun p => ?_⟩
  · rw [hport, setHold_auth e h hno]
    split <;> exact flags p
  · rw [hport]
    rw [setHold_elem] at hd
    split at hd
    · exact hup p hd
    · exact held d p hd
  · rw [setHold_auth e h hno]
    simp only [setHold_elem]
    split
    · next gone =>
      obtain ⟨-, others⟩ := gone
      simp only [Option.isSome_none, Bool.false_eq_true, false_iff, not_exists]
      intro d
      split
      · exact hno p
      · next hd => exact others d hd
    · next stays =>
      rw [timers p]
      constructor
      · rintro ⟨d, hd⟩
        by_cases hde : d = e
        · subst hde
          simp only [hd, true_and, not_forall, not_not] at stays
          obtain ⟨d', hne, hd'⟩ := stays
          exact ⟨d', by rw [if_neg hne]; exact hd'⟩
        · exact ⟨d, by rw [if_neg hde]; exact hd⟩
      · rintro ⟨d, hd⟩
        split at hd
        · exact absurd hd (hno p)
        · exact ⟨d, hd⟩

/-- A port that has become UP, with its link flag set and its holds returned (R73). -/
theorem portUpReport_agree {s u : State} (p : Port) (hp : (u.port p).link = .up)
    (hother : ∀ q, q ≠ p → (u.port q).link = (s.port q).link) (hauth : ∀ q, u.auth q = s.auth q)
    (helem : ∀ e, u.elem e = s.elem e) (h : HoldsAgree s) : HoldsAgree (portUpReport p u) := by
  obtain ⟨⟨flags, held⟩, timers⟩ := h
  have hport : ∀ q, (portUpReport p u).port q = u.port q := fun q => by
    unfold portUpReport
    dsimp only
    split <;> simp
  refine ⟨⟨fun q => ?_, fun e q he => ?_⟩, fun q => ?_⟩
  · rw [hport, portUpReport_auth]
    split
    · next hq => simp [hq, hp]
    · next hq => rw [hother q hq, hauth]; exact flags q
  · rw [hport]
    by_cases hq : q = p
    · rw [hq]; exact hp
    · rw [hother q hq]
      rw [portUpReport_elem, helem] at he
      dsimp only at he
      split at he
      · exact absurd (Hold.held.inj he).symm hq
      · exact held e q he
  · rw [portUpReport_auth]
    simp only [portUpReport_elem, helem, hauth]
    split
    · next hq =>
      subst hq
      simp only [Option.isSome_none, Bool.false_eq_true, false_iff, not_exists]
      intro e
      split
      · simp
      · next back => exact fun he => back ⟨he, (timers q).2 ⟨e, he⟩⟩
    · next hq =>
      rw [timers q]
      refine exists_congr fun e => ?_
      split
      · next back => rw [back.1]; simp [Ne.symm hq]
      · rfl

/-- A port that has left UP, with its link flag cleared and its holds orphaned (R72). -/
theorem portLostReport_agree {s u : State} (p : Port) (hp : (u.port p).link ≠ .up)
    (hother : ∀ q, q ≠ p → (u.port q).link = (s.port q).link) (hauth : ∀ q, u.auth q = s.auth q)
    (helem : ∀ e, u.elem e = s.elem e) (h : HoldsAgree s) : HoldsAgree (portLostReport p u) := by
  obtain ⟨⟨flags, held⟩, timers⟩ := h
  have hport : ∀ q, (portLostReport p u).port q = u.port q := fun q => by
    unfold portLostReport
    simp
  refine ⟨⟨fun q => ?_, fun e q he => ?_⟩, fun q => ?_⟩
  · rw [hport, portLostReport_auth]
    split
    · next hq => simp [hq, hp]
    · next hq => rw [hother q hq, hauth]; exact flags q
  · rw [hport]
    rw [portLostReport_elem, helem] at he
    dsimp only at he
    split at he
    · cases he
    · next other =>
      have hq : q ≠ p := fun hq => other (hq ▸ he)
      rw [hother q hq]
      exact held e q he
  · rw [portLostReport_auth]
    split
    · next hq =>
      subst hq
      split
      · next none => simpa using none
      · next some => simpa using some
    · next hq =>
      rw [hauth, timers q]
      simp only [portLostReport_elem, helem]
      refine exists_congr fun e => ?_
      split
      · next lost => rw [lost]; simp [Ne.symm hq]
      · rfl

theorem dropOrphans_port_link (p q : Port) (s : State) : ((dropOrphans p s).port q).link = (s.port q).link := by
  unfold dropOrphans
  dsimp only
  rw [((raise_reported _ _ _ _).ports q).link]
  simp

/-- The expiry of an orphan timer empties the port's orphan set (R75). -/
theorem dropOrphans_agree (p : Port) (s : State) (h : HoldsAgree s) : HoldsAgree (dropOrphans p s) := by
  obtain ⟨⟨flags, held⟩, timers⟩ := h
  refine ⟨⟨fun q => ?_, fun e q he => ?_⟩, fun q => ?_⟩
  · rw [dropOrphans_port_link, dropOrphans_auth]
    split <;> exact flags q
  · rw [dropOrphans_port_link]
    rw [dropOrphans_elem] at he
    dsimp only at he
    split at he
    · cases he
    · exact held e q he
  · rw [dropOrphans_auth]
    simp only [dropOrphans_elem]
    split
    · next hq =>
      subst hq
      simp only [Option.isSome_none, Bool.false_eq_true, false_iff, not_exists]
      intro e
      split
      · simp
      · assumption
    · next hq =>
      rw [timers q]
      refine exists_congr fun e => ?_
      split
      · next gone => rw [gone]; simp [Ne.symm hq]
      · rfl

end Sys2Proof.Machine.Authority

/-!
Every command keeps holds, link flags and orphan timers in agreement: the owners of requests one by one, the hand-over, the
links, the timers and the field line.
-/

namespace Sys2Proof.Machine.Authority

/-! ### The owners of requests -/

/-- An owner that leaves holds and links alone. -/
def OwnerKeeps (owner : Owner) : Prop := ∀ s, HoldsKept s (owner s).1

/-- An owner that keeps the invariant when it takes a request of an UP port. -/
def OwnerAgrees (p : Port) (owner : Owner) : Prop :=
  ∀ s, (s.port p).link = .up → HoldsAgree s → HoldsAgree (owner s).1

theorem OwnerKeeps.agrees {owner : Owner} (h : OwnerKeeps owner) (p : Port) : OwnerAgrees p owner :=
  fun s _ => (h s).agree

/-! In each proof below, every check that fails refuses in the state as it is; what is left is the owner's work. -/

theorem refuse_keeps (a : Answer) : OwnerKeeps (refuse a) := HoldsKept.refl

theorem ownPoll_keeps (f : Option Unit) : OwnerKeeps (ownPoll f) := by
  intro s
  cases f <;> exact .refl s

theorem ownPartView_keeps (f : Option Unit) : OwnerKeeps (ownPartView f) := by
  intro s
  cases f <;> exact .refl s

theorem ownSoftReset_keeps (p : Port) (f : Option Unit) : OwnerKeeps (ownSoftReset p f) := by
  intro s
  unfold ownSoftReset
  iterate 3 (split; · exact .refl s)
  exact .refl s

theorem ownView_keeps (f : Option Byte) : OwnerKeeps (ownView f) := by
  intro s
  unfold ownView
  iterate 3 (split; · exact .refl s)
  exact .refl s

theorem ownPuView_keeps (f : Option Byte) : OwnerKeeps (ownPuView f) := by
  intro s
  unfold ownPuView
  iterate 2 (split; · exact .refl s)
  exact .refl s

theorem ownZoneView_keeps (f : Option Byte) : OwnerKeeps (ownZoneView f) := by
  intro s
  unfold ownZoneView
  iterate 4 (split; · exact .refl s)
  exact .refl s

theorem ownCallList_keeps (f : Option Byte) : OwnerKeeps (ownCallList f) := by
  intro s
  unfold ownCallList
  iterate 2 (split; · exact .refl s)
  exact .refl s

theorem ownStart_keeps (p : Port) (f : Option StartFields) : OwnerKeeps (ownStart p f) := by
  intro s
  unfold ownStart
  iterate 7 (split; · exact .refl s)
  unfold startOn
  dsimp only
  iterate 6 (split; · exact .refl s)
  exact holdsKept_of_worked (applyStart_worked _ _ _ _ _ s)

theorem ownHalt_keeps (p : Port) (f : Option Byte) : OwnerKeeps (ownHalt p f) := by
  intro s
  unfold ownHalt
  iterate 7 (split; · exact .refl s)
  exact holdsKept_of_worked (endAndRelease_worked _ _ s)

theorem ownResume_keeps (p : Port) (f : Option Byte) : OwnerKeeps (ownResume p f) := by
  intro s
  unfold ownResume
  iterate 5 (split; · exact .refl s)
  exact holdsKept_of_worked (resumeOn_worked _ s)

theorem ownClear_keeps (p : Port) (f : Option Byte) : OwnerKeeps (ownClear p f) := by
  intro s
  unfold ownClear
  iterate 6 (split; · exact .refl s)
  exact holdsKept_of_worked (applyClear_worked _ _ s)

theorem ownConsent_keeps (p : Port) (elems : List Byte) : OwnerKeeps (ownConsent p elems) := by
  intro s
  unfold ownConsent
  iterate 2 (split; · exact .refl s)
  exact holdsKept_of_worked (consentAll_worked p elems s)

theorem ownStopAll_keeps (p : Port) (f : Option Unit) : OwnerKeeps (ownStopAll p f) := by
  intro s
  unfold ownStopAll
  iterate 3 (split; · exact .refl s)
  exact holdsKept_of_worked (stopAll_worked s.stoppable s)

theorem ownPuClear_keeps (p : Port) (f : Option Byte) : OwnerKeeps (ownPuClear p f) := by
  intro s
  unfold ownPuClear
  iterate 6 (split; · exact .refl s)
  rename_i u _ _ _
  have cleared : HoldsKept s (s.modUnit u UnitRun.cleared) := .of_same_tables rfl rfl rfl
  exact cleared.trans (holdsKept_of_worked (startChecks_ran _).toWorked)

theorem modZone_raise_holdsKept (s : State) (z : ZoneId) (f : ZoneRun → ZoneRun) (k : EventKind) (source : Byte)
    (detail : Word16) : HoldsKept s ((s.modZone z f).raise k source detail) :=
  HoldsKept.trans (b := s.modZone z f) (.of_same_tables rfl rfl rfl) (raise_holdsKept _ _ _ _)

theorem enterAlarm_keeps (p : Port) (z : ZoneId) (s : State) : HoldsKept s (enterAlarm p z s) := by
  unfold enterAlarm
  dsimp only
  have raised := modZone_raise_holdsKept s z (ZoneRun.alarm s.time s.tCnf p) .zoneAlarm (zoneByte z) (wordOf p.val)
  generalize State.raise _ _ _ _ = u at raised ⊢
  refine raised.trans ?_
  split
  · have joined : HoldsKept u (u.setAlarmed (u.etu.alarmed ||| zoneBit z)) := .of_same_tables rfl rfl rfl
    have doors := holdsKept_of_worked (etuAlarm_worked z u)
    have muted : HoldsKept (etuAlarm z u) ((etuAlarm z u).modCsc fun c => { c with muted := c.muted ||| zoneBit z }) :=
      .of_same_tables rfl rfl rfl
    exact ((joined.trans doors).trans muted).trans (holdsKept_of_called (cscAlarm_called z _))
  · exact .refl u

theorem leaveAlarm_keeps (p : Port) (z : ZoneId) (s : State) : HoldsKept s (leaveAlarm p z s) := by
  unfold leaveAlarm
  dsimp only
  have raised := modZone_raise_holdsKept s z ZoneRun.normal .zoneReset (zoneByte z) (wordOf p.val)
  generalize State.raise _ _ _ _ = u at raised ⊢
  refine raised.trans ?_
  split
  · have left : HoldsKept u (u.setAlarmed (u.etu.alarmed &&& ~~~zoneBit z)) := .of_same_tables rfl rfl rfl
    have doors := holdsKept_of_worked (etuNormal_worked z u)
    have unmuted : HoldsKept (etuNormal z u)
        (((etuNormal z u).modCsc (Csc.remove fun e => e.cancel = .zoneNormal z)).modCsc (Csc.unmute z)) :=
      .of_same_tables rfl rfl rfl
    exact ((left.trans doors).trans unmuted).trans (holdsKept_of_called (cscNormal_called z _ _))
  · exact .refl u

theorem zoneRequest_keeps (p : Port) (f : Option Byte) (act : ZoneId → Owner) (h : ∀ z, OwnerKeeps (act z)) :
    OwnerKeeps (zoneRequest p f act) := by
  intro s
  unfold zoneRequest
  iterate 4 (split; · exact .refl s)
  exact h _ s

theorem ownZoneAlarm_keeps (p : Port) (f : Option Byte) : OwnerKeeps (ownZoneAlarm p f) := by
  refine zoneRequest_keeps p f _ fun z s => ?_
  split
  · exact .refl s
  · exact enterAlarm_keeps p z s

theorem ownZoneConfirm_keeps (p : Port) (f : Option Byte) : OwnerKeeps (ownZoneConfirm p f) := by
  refine zoneRequest_keeps p f _ fun z s => ?_
  split
  · exact .refl s
  · exact .of_same_tables rfl rfl rfl
  · exact .refl s

theorem ownZoneReset_keeps (p : Port) (f : Option Byte) : OwnerKeeps (ownZoneReset p f) := by
  refine zoneRequest_keeps p f _ fun z s => ?_
  split
  · exact leaveAlarm_keeps p z s
  · exact .refl s

theorem ownCall_keeps (p : Port) (f : Option CallFields) : OwnerKeeps (ownCall p f) := by
  intro s
  unfold ownCall
  iterate 7 (split; · exact .refl s)
  have accepts {n : NewCall} {t : State} {a : Accepted} (h : accept n s = (t, a)) : HoldsKept s t := by
    have taken := holdsKept_of_called (accept_called n s)
    rwa [h] at taken
  split
  · next merged => exact accepts merged
  · next new => exact (accepts new).trans (holdsKept_of_called (select_called _))
  · next full => exact accepts full

theorem ownWithdraw_keeps (p : Port) (f : Option Byte) : OwnerKeeps (ownWithdraw p f) := by
  intro s
  unfold ownWithdraw
  iterate 4 (split; · exact .refl s)
  exact holdsKept_of_called ((modCsc_called s _ (remove_kept _ _)).trans (select_called _))

theorem collectOn_keeps (e : ElemId) (c : ElementCfg) : OwnerKeeps (collectOn e c) := by
  intro s
  unfold collectOn
  dsimp only
  split
  · exact modElem_holdsKept s e ElemRun.collect fun r => by unfold ElemRun.collect; split <;> rfl
  · exact modElem_holdsKept s e ElemRun.collectLate fun _ => rfl

theorem ownCollect_keeps (f : Option Byte) : OwnerKeeps (ownCollect f) := by
  intro s
  unfold ownCollect
  iterate 4 (split; · exact .refl s)
  exact collectOn_keeps _ _ s

theorem ownCollectNext_keeps (p : Port) (f : Option Unit) : OwnerKeeps (ownCollectNext p f) := by
  intro s
  unfold ownCollectNext
  iterate 2 (split; · exact .refl s)
  split
  · exact collectOn_keeps _ _ s
  · exact .refl s

theorem ownSetMask_keeps (p : Port) (f : Option Byte) : OwnerKeeps (ownSetMask p f) := by
  intro s
  unfold ownSetMask
  iterate 2 (split; · exact .refl s)
  rename_i m
  have masked : HoldsKept s (s.setMask p m) := .of_same_tables rfl rfl rfl
  exact masked.trans (holdsKept_of_reported (upAttention_reported _ p _))

theorem ownFetchEvent_keeps (p : Port) (f : Option Unit) : OwnerKeeps (ownFetchEvent p f) := by
  intro s
  unfold ownFetchEvent
  iterate 3 (split; · exact .refl s)
  exact .of_same_tables rfl rfl rfl

theorem ownCfgWrite_keeps (p : Port) (f : Option WriteFields) : OwnerKeeps (ownCfgWrite p f) := by
  intro s
  unfold ownCfgWrite
  iterate 2 (split; · exact .refl s)
  exact .of_same_tables rfl rfl rfl

theorem ownCfgRead_keeps (p : Port) (f : Option (Byte × Byte)) : OwnerKeeps (ownCfgRead p f) := by
  intro s
  unfold ownCfgRead
  iterate 2 (split; · exact .refl s)
  exact .refl s

theorem ownCfgCommit_keeps (p : Port) (f : Option Unit) : OwnerKeeps (ownCfgCommit p f) := by
  intro s
  unfold ownCfgCommit
  split
  · exact .refl s
  · exact .of_same_tables rfl rfl rfl

/-! #### Requests that set holds -/

theorem applyModify_agree (e : ElemId) (c : ElementCfg) (f : ModifyFields) (s : State) (h : HoldsAgree s) :
    HoldsAgree (applyModify e c f s) := by
  unfold applyModify
  dsimp only
  have settings := (modElem_holdsKept s e (ElemRun.settings f) fun _ => rfl).agree h
  generalize s.modElem e (ElemRun.settings f) = u at settings ⊢
  split
  · unfold disable
    dsimp only
    have freed := setHold_agree e .none u (by simp) (by simp) settings
    split
    · exact (holdsKept_of_worked (doorUnavailable_atElem e c _).toWorked).agree freed
    · exact freed
  · split
    · exact (holdsKept_of_worked (closureTest_atElem e c u).toWorked).agree settings
    · exact settings

theorem ownModify_agrees (p : Port) (f : Option ModifyFields) : OwnerAgrees p (ownModify p f) := by
  intro s _ h
  unfold ownModify
  iterate 7 (split; · exact h)
  exact applyModify_agree _ _ _ s h

theorem ownClaim_agrees (p : Port) (f : Option Byte) : OwnerAgrees p (ownClaim p f) := by
  intro s up h
  have claimed (e : ElemId) : HoldsAgree (setHold e (.held p) s) :=
    setHold_agree e _ s (by simp) (fun q hq => Hold.held.inj hq ▸ up) h
  unfold ownClaim
  iterate 5 (split; · exact h)
  split
  · exact claimed _
  · split <;> exact h
  · split
    · exact claimed _
    · exact h

theorem ownRelease_agrees (p : Port) (f : Option Byte) : OwnerAgrees p (ownRelease p f) := by
  intro s _ h
  unfold ownRelease
  iterate 4 (split; · exact h)
  split
  · exact setHold_agree _ _ s (by simp) (by simp) h
  · exact h

/-- The target of a GRANT is UP, since its link flag is set (R69). -/
theorem ownGrant_agrees (p : Port) (f : Option (Byte × Byte)) : OwnerAgrees p (ownGrant p f) := by
  intro s _ h
  unfold ownGrant
  iterate 6 (split; · exact h)
  split
  · exact h
  · next q _ _ passed =>
    have up : (s.port q).link = .up := by
      simp only [Bool.or_eq_true, Bool.not_eq_true', not_or, Bool.not_eq_false] at passed
      exact (h.1.1 q).1 passed.1
    exact setHold_agree _ _ s (by simp) (fun r hr => Hold.held.inj hr ▸ up) h

theorem ownRevoke_agrees (p : Port) (f : Option Byte) : OwnerAgrees p (ownRevoke p f) := by
  intro s _ h
  unfold ownRevoke
  iterate 5 (split; · exact h)
  exact setHold_agree _ _ s (by simp) (by simp) h

/-- Every request code, whatever its payload. -/
theorem ownerOf_agrees (p : Port) (code : Byte) (bs : List Byte) : OwnerAgrees p (ownerOf p code bs) := by
  unfold ownerOf
  split
  · exact (ownPoll_keeps _).agrees p
  · exact (ownPartView_keeps _).agrees p
  · exact (ownSoftReset_keeps p _).agrees p
  · exact (ownView_keeps _).agrees p
  · exact ownModify_agrees p _
  · exact (ownStart_keeps p _).agrees p
  · exact (ownHalt_keeps p _).agrees p
  · exact (ownResume_keeps p _).agrees p
  · exact (ownClear_keeps p _).agrees p
  · exact (ownConsent_keeps p _).agrees p
  · exact (ownStopAll_keeps p _).agrees p
  · exact ownClaim_agrees p _
  · exact ownRelease_agrees p _
  · exact ownGrant_agrees p _
  · exact ownRevoke_agrees p _
  · exact (ownPuClear_keeps p _).agrees p
  · exact (ownPuView_keeps _).agrees p
  · exact (ownZoneAlarm_keeps p _).agrees p
  · exact (ownZoneConfirm_keeps p _).agrees p
  · exact (ownZoneReset_keeps p _).agrees p
  · exact (ownZoneView_keeps _).agrees p
  · exact (ownCall_keeps p _).agrees p
  · exact (ownWithdraw_keeps p _).agrees p
  · exact (ownCallList_keeps _).agrees p
  · exact (ownCollect_keeps _).agrees p
  · exact (ownCollectNext_keeps p _).agrees p
  · exact (ownSetMask_keeps p _).agrees p
  · exact (ownFetchEvent_keeps p _).agrees p
  · exact (ownCfgWrite_keeps p _).agrees p
  · exact (ownCfgRead_keeps p _).agrees p
  · exact (ownCfgCommit_keeps p _).agrees p
  · exact (refuse_keeps _).agrees p

/-! ### Hand-over, links, timers and the field line -/

theorem take_agree {p : Port} {owner : Owner} (seq code : Byte) (s : State) (up : (s.port p).link = .up)
    (ho : OwnerAgrees p owner) (h : HoldsAgree s) : HoldsAgree (take p seq code owner s) := by
  unfold take
  dsimp only
  have reserved : HoldsKept s (s.reserve p seq code) := modPort_holdsKept s p _ fun _ => rfl
  have worked := ho (s.reserve p seq code) (by rw [reserved.link]; exact up) (reserved.agree h)
  exact ((modPort_holdsKept _ p _ (place_link seq _)).trans (finishReports_holdsKept _ _)).agree worked

theorem request_agree {p : Port} {owner : Owner} (seq code : Byte) (s : State) (ho : OwnerAgrees p owner)
    (h : HoldsAgree s) : HoldsAgree (request p seq code owner s) := by
  by_cases hr : Ready p s
  · rw [request_ready hr]; exact take_agree seq code s hr.link ho h
  · rw [request_not_ready hr]; exact h

theorem canHandOn_link {r : PortRec} (h : r.canHandOn = true) : r.link = .up := by
  unfold PortRec.canHandOn at h
  simp only [Bool.and_eq_true, decide_eq_true_eq] at h
  exact h.1.1

theorem handOver_agree (p : Port) (n : Nat) (s : State) (h : HoldsAgree s) : HoldsAgree (handOver p n s) := by
  induction n generalizing s with
  | zero => exact h
  | succ n ih =>
    unfold handOver
    split
    · exact h
    · split
      · next ready =>
        have popped := modPort_holdsKept s p _ popRequest_link
        exact ih _ (take_agree _ _ _ ((popped.link p).trans (canHandOn_link ready)) (ownerOf_agrees p _ _)
          (popped.agree h))
      · exact h

theorem handOn_agree (p : Port) (s : State) (h : HoldsAgree s) : HoldsAgree (handOn p s) := handOver_agree p _ s h

theorem portUp_agree (p : Port) (s : State) (h : HoldsAgree s) : HoldsAgree (portUp p s) := by
  unfold portUp
  dsimp only
  refine ((raise_holdsKept _ _ _ _).trans (holdsKept_of_reported (upAttention_reported _ p _))).agree ?_
  refine portUpReport_agree (s := s) p ?_ (fun q hq => ?_) (fun _ => rfl) (fun _ => rfl) h
  · simp
  · simp [hq]

theorem supervise_agree (p : Port) (s : State) (h : HoldsAgree s) : HoldsAgree (supervise p s) := by
  unfold supervise
  split
  · exact (modPort_holdsKept s p (fun r => { r with silence := some tSil }) fun _ => rfl).agree h
  · exact portUp_agree p s h

theorem loseLink_agree (p : Port) (s : State) (h : HoldsAgree s) : HoldsAgree (loseLink p s) := by
  unfold loseLink
  have raised := raise_reported (s.modPort p PortRec.lose) .linkLost (byteOf p.val) 0
  refine portLostReport_agree (s := s) p ?_ (fun q hq => ?_) raised.auth raised.elem h
  · rw [(raised.ports p).link]; simp [PortRec.lose]
  · rw [(raised.ports q).link]; simp [hq]

theorem notify_keeps (order : BlockOrder) (n : NodeId) (was : Option Word16) (lost : Bool) (s : State) :
    HoldsKept s (notify order n was lost s) := by
  have etu (u : State) : HoldsKept u (finishReports u (etuNotify n was u)) :=
    (holdsKept_of_worked (etuNotify_worked n was u)).trans (finishReports_holdsKept u _)
  have dpm (u : State) : HoldsKept u (finishReports u (dpmNotify n was lost u)) :=
    (holdsKept_of_worked (dpmNotify_worked n was lost u)).trans (finishReports_holdsKept u _)
  unfold notify
  cases order
  · exact (etu s).trans (dpm _)
  · exact (dpm s).trans (etu _)

theorem modNode_holdsKept (s : State) (n : NodeId) (f : NodeRun → NodeRun) : HoldsKept s (s.modNode n f) :=
  .of_same_tables rfl rfl rfl

theorem fieldAnswer_keeps (order : BlockOrder) (n : NodeId) (bits : Word16) (s : State) :
    HoldsKept s (fieldAnswer order n bits s) := by
  unfold fieldAnswer
  dsimp only
  have online := modNode_holdsKept s n fun r => { r with state := .online, misses := 0, inputs := some bits }
  generalize s.modNode n _ = u at online ⊢
  refine online.trans ?_
  have back : HoldsKept u (if (s.node n).state = .lost then u.raise .nodeBack (byteOf n.val) 0 else u) := by
    split
    · exact raise_holdsKept u _ _ _
    · exact .refl u
  generalize (if (s.node n).state = .lost then u.raise .nodeBack (byteOf n.val) 0 else u) = v at back ⊢
  refine back.trans ?_
  split
  · exact .refl v
  · exact notify_keeps _ _ _ _ _

theorem fieldMiss_keeps (order : BlockOrder) (n : NodeId) (s : State) : HoldsKept s (fieldMiss order n s) := by
  unfold fieldMiss
  split
  · split
    · exact modNode_holdsKept s n _
    · exact (((modNode_holdsKept s n _).trans (raise_holdsKept _ _ _ _)).trans (modNode_holdsKept _ n _)).trans
        (notify_keeps _ _ _ _ _)
  · exact .refl s

theorem elemAtReset_hold (img : Image) (e : ElemId) : (elemAtReset img e).hold = .none := by
  unfold elemAtReset
  split <;> rfl

theorem atReset_link (r : Role) : (PortRec.atReset r).link ≠ .up := by
  cases r <;> decide

/-- After a reset no port is UP, no element is held and no orphan timer runs (R18, R62, R180). -/
theorem startPart_agree (first : EventKind) (source : Byte) (st : Straps) (s : State) :
    HoldsAgree (startPart first source st s) := by
  unfold startPart
  dsimp only
  have restarted : HoldsAgree (fresh first source st (loadedImage s.cfg) s) := by
    refine ⟨⟨fun p => ?_, fun e p he => ?_⟩, fun p => ?_⟩
    · simp [fresh_auth, fresh_port, atReset_link]
    · simp [fresh_elem, elemAtReset_hold] at he
    · simp [fresh_auth, fresh_elem, elemAtReset_hold]
  split
  · exact (holdsKept_of_called (faultRises_called _)).agree restarted
  · exact restarted

/-! ### Every command -/

theorem stationFrameReceived_agree (p : Port) (chars : List LineChar) (s : State) (h : HoldsAgree s) :
    ∃ t, execStationFrameReceived p chars s = .next t ∧ HoldsAgree t := by
  refine ⟨_, rfl, ?_⟩
  split
  · split
    · exact handOn_agree p _ ((modPort_holdsKept _ p _ (receive_link _)).agree (supervise_agree p s h))
    · exact h
  · exact h

theorem pauseReceived_keeps (p : Port) (s : State) : ∃ t, execPauseReceived p s = .next t ∧ HoldsKept s t := by
  refine ⟨_, rfl, ?_⟩
  split
  · exact modPort_holdsKept s p (fun r => { r with paused := true }) fun _ => rfl
  · exact .refl s

theorem continueReceived_keeps (p : Port) (s : State) : ∃ t, execContinueReceived p s = .next t ∧ HoldsKept s t := by
  refine ⟨_, rfl, ?_⟩
  split
  · exact modPort_holdsKept s p (fun r => { r with paused := false }) fun _ => rfl
  · exact .refl s

theorem txFrameStart_keeps (p : Port) (s : State) : ∃ t, execTxFrameStart p s = .next t ∧ HoldsKept s t := by
  refine ⟨_, rfl, ?_⟩
  split
  · next t _ => exact modPort_holdsKept s p (fun r => { r with sending := true, txd := t.chars p }) fun _ => rfl
  · exact .refl s

theorem linkCharacterSend_keeps (p : Port) (s : State) :
    ∃ t, execLinkCharacterSend p s = .next t ∧ HoldsKept s t := by
  refine ⟨_, rfl, ?_⟩
  split
  · split
    · next c _ => exact modPort_holdsKept s p (fun r => { r with waiting := none, txd := [c.byte] }) fun _ => rfl
    · exact .refl s
  · exact .refl s

theorem txFrameSent_agree (p : Port) (st : Straps) (s : State) (h : HoldsAgree s) :
    ∃ t, execTxFrameSent p st s = .next t ∧ HoldsAgree t := by
  refine ⟨_, rfl, ?_⟩
  split
  · split
    · exact startPart_agree _ _ st s
    · exact handOn_agree p _ ((modPort_holdsKept s p _ frameLeaves_link).agree h)
  · exact h

theorem silenceTimeout_agree (p : Port) (st : Straps) (s : State) (h : HoldsAgree s) :
    ∃ t, execSilenceTimeout p st s = .next t ∧ HoldsAgree t := by
  refine ⟨_, rfl, ?_⟩
  split
  · split
    · exact startPart_agree _ _ st s
    · exact loseLink_agree p s h
  · exact h

theorem cfgCommitDone_agree (s : State) (h : HoldsAgree s) : ∃ t, execCfgCommitDone s = .next t ∧ HoldsAgree t := by
  refine ⟨_, rfl, ?_⟩
  split
  · exact h
  · next p _ =>
    have ended : HoldsKept s
        { s with cfg := { s.cfg with committing := none, valid := (validate s.cfg.image).isNone } } :=
      .of_same_tables rfl rfl rfl
    exact handOn_agree p _ ((ended.trans (modPort_holdsKept _ p _ (place_link 0 _))).agree h)

theorem orphanTimeout_agree (p : Port) (s : State) (h : HoldsAgree s) :
    ∃ t, execOrphanTimeout p s = .next t ∧ HoldsAgree t := by
  refine ⟨_, rfl, ?_⟩
  split
  · exact dropOrphans_agree p s h
  · exact h

theorem confirmTimerExpiry_keeps (z : ZoneId) (s : State) :
    ∃ t, execConfirmTimerExpiry z s = .next t ∧ HoldsKept s t := by
  refine ⟨_, rfl, ?_⟩
  split
  · exact modZone_raise_holdsKept s z _ _ _ _
  · exact .refl s

theorem modCsc_holdsKept (s : State) (f : Csc → Csc) : HoldsKept s (s.modCsc f) := .of_same_tables rfl rfl rfl

theorem busyRise_keeps (s : State) : ∃ t, execBusyRise s = .next t ∧ HoldsKept s t := by
  refine ⟨_, rfl, ?_⟩
  split
  · exact .refl s
  · dsimp only
    split
    · exact (modCsc_holdsKept s _).trans (modCsc_holdsKept _ _)
    · exact modCsc_holdsKept s _

theorem busyFall_keeps (s : State) : ∃ t, execBusyFall s = .next t ∧ HoldsKept s t := by
  refine ⟨_, rfl, ?_⟩
  split
  · dsimp only
    split
    · exact (modCsc_holdsKept s _).trans (holdsKept_of_called ((busyFalls_called _).trans (select_called _)))
    · exact modCsc_holdsKept s _
  · exact .refl s

theorem paFaultRise_keeps (s : State) : ∃ t, execPaFaultRise s = .next t ∧ HoldsKept s t := by
  refine ⟨_, rfl, ?_⟩
  split
  · exact .refl s
  · exact (modCsc_holdsKept s _).trans (holdsKept_of_called (faultRises_called _))

theorem paFaultFall_keeps (s : State) : ∃ t, execPaFaultFall s = .next t ∧ HoldsKept s t := by
  refine ⟨_, rfl, ?_⟩
  split
  · dsimp only
    split
    · exact ((modCsc_holdsKept s _).trans (modCsc_holdsKept _ _)).trans (holdsKept_of_called (select_called _))
    · exact modCsc_holdsKept s _
  · exact .refl s

/-- A limit of the PA port, due or not (R133). -/
theorem paLimit_keeps (st : PaState) (cause : PaCause) (s : State) :
    HoldsKept s (if s.paDue st then paFault cause s else s) := by
  split
  · exact holdsKept_of_called (paFault_called cause s)
  · exact .refl s

theorem intervalExpiry_keeps (id : Byte) (s : State) : ∃ t, execIntervalExpiry id s = .next t ∧ HoldsKept s t := by
  refine ⟨_, rfl, ?_⟩
  split
  · split
    · refine HoldsKept.trans ?_ (holdsKept_of_called (select_called _))
      split
      · exact (modCsc_holdsKept s _).trans (modCsc_holdsKept _ _)
      · exact modCsc_holdsKept s _
    · exact .refl s
  · exact .refl s

theorem callExpiry_keeps (id : Byte) (s : State) : ∃ t, execCallExpiry id s = .next t ∧ HoldsKept s t := by
  refine ⟨_, rfl, ?_⟩
  split
  · split
    · split
      · exact modCsc_holdsKept s _
      · exact (modCsc_holdsKept s _).trans (holdsKept_of_called (select_called _))
    · exact .refl s
  · exact .refl s

theorem fieldExchangeStart_keeps (s : State) : ∃ t, execFieldExchangeStart s = .next t ∧ HoldsKept s t := by
  refine ⟨_, rfl, ?_⟩
  split
  · split
    · exact .refl s
    · exact .of_same_tables rfl rfl rfl
  · exact .refl s

theorem endExchange_holdsKept (s : State) : HoldsKept s (endExchange s) := .of_same_tables rfl rfl rfl

theorem fieldFrameReceived_keeps (chars : List LineChar) (order : BlockOrder) (s : State) :
    ∃ t, execFieldFrameReceived chars order s = .next t ∧ HoldsKept s t := by
  refine ⟨_, rfl, ?_⟩
  split
  · exact .refl s
  · split
    · exact (endExchange_holdsKept s).trans (fieldAnswer_keeps _ _ _ _)
    · exact (endExchange_holdsKept s).trans (fieldMiss_keeps _ _ _)

theorem fieldAnswerTimeout_keeps (order : BlockOrder) (s : State) :
    ∃ t, execFieldAnswerTimeout order s = .next t ∧ HoldsKept s t := by
  refine ⟨_, rfl, ?_⟩
  split
  · exact .refl s
  · exact (endExchange_holdsKept s).trans (fieldMiss_keeps _ _ _)

theorem startTimerExpiry_keeps (u : UnitId) (s : State) :
    ∃ t, execStartTimerExpiry u s = .next t ∧ HoldsKept s t := by
  refine ⟨_, rfl, ?_⟩
  split
  · exact (holdsKept_of_worked (faultUnit_worked u _ s)).trans (finishReports_holdsKept s _)
  · exact .refl s

theorem idleTimerExpiry_keeps (u : UnitId) (s : State) :
    ∃ t, execIdleTimerExpiry u s = .next t ∧ HoldsKept s t := by
  refine ⟨_, rfl, ?_⟩
  split
  · have off : HoldsKept s (s.modUnit u fun r => { r with state := .off, idleTimer := none }) :=
      .of_same_tables rfl rfl rfl
    exact off.trans (holdsKept_of_worked (drive_ran _ _ _).toWorked)
  · exact .refl s

/-- The work of a timer of an operation, and the end of its event. -/
theorem finishReports_agree {s t : State} (k : Worked s t) (h : HoldsAgree s) : HoldsAgree (finishReports s t) :=
  ((holdsKept_of_worked k).trans (finishReports_holdsKept s t)).agree h

/-- A command that leaves holds and links alone keeps the invariant. -/
theorem agree_of_keeps {r : Result} {s : State} (h : HoldsAgree s) (k : ∃ t, r = .next t ∧ HoldsKept s t) :
    ∃ t, r = .next t ∧ HoldsAgree t := by
  obtain ⟨t, ht, k⟩ := k
  exact ⟨t, ht, k.agree h⟩

/-- Every command ends in a state that keeps the invariant. -/
theorem exec_agree (c : Instr) (s : State) (h : HoldsAgree s) : ∃ t, exec c s = .next t ∧ HoldsAgree t := by
  have keeping {p : Port} (seq code : Byte) {owner : Owner} (ho : OwnerKeeps owner) :
      HoldsAgree (request p seq code owner s) := request_agree seq code s (ho.agrees p) h
  cases c with
  | reset st => exact ⟨_, rfl, startPart_agree _ _ st s⟩
  | timeBaseTick => exact ⟨_, rfl, (tick_holdsKept s).agree h⟩
  | stationFrameReceived p chars => exact stationFrameReceived_agree p chars s h
  | pauseReceived p => exact agree_of_keeps h (pauseReceived_keeps p s)
  | continueReceived p => exact agree_of_keeps h (continueReceived_keeps p s)
  | txFrameStart p => exact agree_of_keeps h (txFrameStart_keeps p s)
  | linkCharacterSend p => exact agree_of_keeps h (linkCharacterSend_keeps p s)
  | txFrameSent p st => exact txFrameSent_agree p st s h
  | silenceTimeout p st => exact silenceTimeout_agree p st s h
  | poll p seq => exact ⟨_, rfl, keeping seq _ (ownPoll_keeps _)⟩
  | partView p seq => exact ⟨_, rfl, keeping seq _ (ownPartView_keeps _)⟩
  | softReset p seq => exact ⟨_, rfl, keeping seq _ (ownSoftReset_keeps p _)⟩
  | view p seq e => exact ⟨_, rfl, keeping seq _ (ownView_keeps _)⟩
  | modify p seq f => exact ⟨_, rfl, request_agree seq _ s (ownModify_agrees p _) h⟩
  | start p seq f => exact ⟨_, rfl, keeping seq _ (ownStart_keeps p _)⟩
  | halt p seq e => exact ⟨_, rfl, keeping seq _ (ownHalt_keeps p _)⟩
  | resume p seq e => exact ⟨_, rfl, keeping seq _ (ownResume_keeps p _)⟩
  | clear p seq e => exact ⟨_, rfl, keeping seq _ (ownClear_keeps p _)⟩
  | consent p seq es => exact ⟨_, rfl, keeping seq _ (ownConsent_keeps p es)⟩
  | stopAll p seq => exact ⟨_, rfl, keeping seq _ (ownStopAll_keeps p _)⟩
  | claim p seq e => exact ⟨_, rfl, request_agree seq _ s (ownClaim_agrees p _) h⟩
  | release p seq e => exact ⟨_, rfl, request_agree seq _ s (ownRelease_agrees p _) h⟩
  | grant p seq e q => exact ⟨_, rfl, request_agree seq _ s (ownGrant_agrees p _) h⟩
  | revoke p seq e => exact ⟨_, rfl, request_agree seq _ s (ownRevoke_agrees p _) h⟩
  | puClear p seq u => exact ⟨_, rfl, keeping seq _ (ownPuClear_keeps p _)⟩
  | puView p seq pos => exact ⟨_, rfl, keeping seq _ (ownPuView_keeps _)⟩
  | zoneAlarm p seq z => exact ⟨_, rfl, keeping seq _ (ownZoneAlarm_keeps p _)⟩
  | zoneConfirm p seq z => exact ⟨_, rfl, keeping seq _ (ownZoneConfirm_keeps p _)⟩
  | zoneReset p seq z => exact ⟨_, rfl, keeping seq _ (ownZoneReset_keeps p _)⟩
  | zoneView p seq z => exact ⟨_, rfl, keeping seq _ (ownZoneView_keeps _)⟩
  | confirmTimerExpiry z => exact agree_of_keeps h (confirmTimerExpiry_keeps z s)
  | call p seq f => exact ⟨_, rfl, keeping seq _ (ownCall_keeps p _)⟩
  | withdraw p seq id => exact ⟨_, rfl, keeping seq _ (ownWithdraw_keeps p _)⟩
  | callList p seq pos => exact ⟨_, rfl, keeping seq _ (ownCallList_keeps _)⟩
  | busyRise => exact agree_of_keeps h (busyRise_keeps s)
  | busyFall => exact agree_of_keeps h (busyFall_keeps s)
  | paFaultRise => exact agree_of_keeps h (paFaultRise_keeps s)
  | paFaultFall => exact agree_of_keeps h (paFaultFall_keeps s)
  | paAnswerTimeout => exact ⟨_, rfl, (paLimit_keeps .starting .answerLimit s).agree h⟩
  | paPlayTimeout => exact ⟨_, rfl, (paLimit_keeps .playing .playLimit s).agree h⟩
  | paStopTimeout => exact ⟨_, rfl, (paLimit_keeps .stopping .stopLimit s).agree h⟩
  | intervalExpiry id => exact agree_of_keeps h (intervalExpiry_keeps id s)
  | callExpiry id => exact agree_of_keeps h (callExpiry_keeps id s)
  | collect p seq e => exact ⟨_, rfl, keeping seq _ (ownCollect_keeps _)⟩
  | collectNext p seq => exact ⟨_, rfl, keeping seq _ (ownCollectNext_keeps p _)⟩
  | setMask p seq m => exact ⟨_, rfl, keeping seq _ (ownSetMask_keeps p _)⟩
  | fetchEvent p seq => exact ⟨_, rfl, keeping seq _ (ownFetchEvent_keeps p _)⟩
  | cfgWrite p seq f => exact ⟨_, rfl, keeping seq _ (ownCfgWrite_keeps p _)⟩
  | cfgRead p seq sect entry => exact ⟨_, rfl, keeping seq _ (ownCfgRead_keeps p _)⟩
  | cfgCommit p seq => exact ⟨_, rfl, keeping seq _ (ownCfgCommit_keeps p _)⟩
  | cfgCommitDone => exact cfgCommitDone_agree s h
  | fieldExchangeStart => exact agree_of_keeps h (fieldExchangeStart_keeps s)
  | fieldFrameReceived chars order => exact agree_of_keeps h (fieldFrameReceived_keeps chars order s)
  | fieldAnswerTimeout order => exact agree_of_keeps h (fieldAnswerTimeout_keeps order s)
  | stageTimerExpiry e => exact ⟨_, rfl, finishReports_agree (stageTimer_worked e s) h⟩
  | stageLimitExpiry e => exact ⟨_, rfl, finishReports_agree (stageLimitReached_worked e s) h⟩
  | consentWindowExpiry e => exact ⟨_, rfl, finishReports_agree (windowExpires_atElem e s).toWorked h⟩
  | suspensionTimeout e => exact ⟨_, rfl, finishReports_agree (suspensionExpires_worked e s) h⟩
  | orphanTimeout p => exact orphanTimeout_agree p s h
  | startTimerExpiry u => exact agree_of_keeps h (startTimerExpiry_keeps u s)
  | idleTimerExpiry u => exact agree_of_keeps h (idleTimerExpiry_keeps u s)

/-- Settles O58: every command keeps the invariant, and a step is its front command or idle. -/
theorem holdsFollowLinks : Obligations.HoldsFollowLinks := by
  intro s t up timers ht
  unfold step at ht
  split at ht
  · cases ht
    exact ⟨up, timers⟩
  · next c cs _ =>
    have dequeued : HoldsKept s { s with pending := cs } := .of_same_tables rfl rfl rfl
    obtain ⟨t', ht', agree⟩ := exec_agree c _ (dequeued.agree ⟨up, timers⟩)
    cases ht'.symm.trans ht
    exact agree

end Sys2Proof.Machine.Authority

/-!
CLAIM, RELEASE, GRANT and REVOKE (R67 to R70, R74), the orphan timer's expiry (R75), and the invariants at a reset.
-/

namespace Sys2Proof.Machine.Authority

/-! ### The state after a hardware reset -/

theorem reset_elem (e : ElemId) : State.reset.elem e = ElemRun.empty := by
  simp [State.elem, State.reset]

theorem reset_auth (p : Port) : State.reset.auth p = { linkUp := false, orphan := none } := by
  simp [State.auth, State.reset]

theorem reset_unit (u : UnitId) : State.reset.unit u = UnitRun.atReset := by
  simp [State.unit, State.reset]

theorem reset_port (p : Port) : ∃ r, State.reset.port p = PortRec.atReset r := by
  fin_cases p
  exacts [⟨_, rfl⟩, ⟨_, rfl⟩, ⟨_, rfl⟩, ⟨_, rfl⟩]

theorem reset_slotUsers : State.reset.slotUsers = [] := by
  unfold State.slotUsers
  simp only [reset_unit]
  rfl

theorem validate_blank : validate Image.blank = none := by decide

theorem reset_bounded : Bounded State.reset := by
  refine ⟨fun p => ?_, by decide, by decide, by decide⟩
  obtain ⟨r, hr⟩ := reset_port p
  rw [hr]
  exact ⟨Nat.zero_le _, Nat.zero_le _⟩

theorem reset_holdsAgree : HoldsAgree State.reset := by
  refine ⟨⟨fun p => ?_, fun e p he => ?_⟩, fun p => ?_⟩
  · obtain ⟨r, hr⟩ := reset_port p
    simp [hr, reset_auth, atReset_link]
  · simp [reset_elem, ElemRun.empty] at he
  · simp [reset_auth, reset_elem, ElemRun.empty]

/-- Settles O55, invariant by invariant, from what each record holds at a reset. -/
theorem invariantsHoldAtReset : Obligations.InvariantsHoldAtReset := by
  have alarms : AlarmsAgree State.reset := ⟨by decide, fun _ => rfl, rfl⟩
  have ops : OpsMatchActivity State.reset := fun e => by simp [reset_elem, ElemRun.empty]
  have capacity : SlotsInCapacity State.reset := fun u => by simp [reset_unit, UnitRun.atReset, UnitRun.used]
  have once : SlotsHeldOnce State.reset := by
    refine ⟨?_, ?_, fun e he => ?_⟩
    · rw [reset_slotUsers]; exact List.nodup_nil
    · rw [reset_slotUsers]; simp
    · simp [reset_elem, ElemRun.empty] at he
  have listed : ReportsListed State.reset :=
    ⟨List.nodup_nil, fun e => by rw [reset_elem]; exact iff_of_false List.not_mem_nil (by decide)⟩
  exact ⟨reset_bounded, alarms, ops, reset_holdsAgree.1, reset_holdsAgree.2, capacity, once, listed, validate_blank,
    fun h => absurd h (by decide)⟩

/-! ### The orphan timer -/

/-- Outside the element records and the authority records nothing has changed. -/
structure OnlyAuthority (s u : State) : Prop where
  time    : u.time = s.time
  cfg     : u.cfg = s.cfg
  port    : ∀ q, u.port q = s.port q
  alarmed : u.etu.alarmed = s.etu.alarmed
  reports : u.etu.reports = s.etu.reports
  dpm     : u.dpm = s.dpm
  zones   : u.zones = s.zones
  csc     : u.csc = s.csc
  rpu     : u.rpu = s.rpu
  flc     : u.flc = s.flc
  pending : u.pending = s.pending

theorem mapElems_modAuth_onlyAuthority (s : State) (f : ElemRun → ElemRun) (p : Port) (g : AuthRec → AuthRec) :
    OnlyAuthority s ((s.mapElems f).modAuth p g) := by
  constructor <;> simp

theorem modAuth_onlyAuthority (s : State) (p : Port) (g : AuthRec → AuthRec) : OnlyAuthority s (s.modAuth p g) :=
  ⟨rfl, rfl, fun _ => rfl, rfl, rfl, rfl, rfl, rfl, rfl, rfl, rfl⟩

/-- The holds and the timer go, and the rest is the event's report (R75). -/
theorem dropOrphans_raises (p : Port) (s : State) :
    ∃ u, OnlyAuthority s u ∧
      dropOrphans p s = u.raise .holdsDropped (byteOf p.val) (wordOf (s.orphans p).length) := by
  unfold dropOrphans
  exact ⟨_, mapElems_modAuth_onlyAuthority s _ p _, rfl⟩

/-- Settles O34: the holds and the timer go, and the one event is all that follows. -/
theorem orphanTimeoutDropsHolds : Obligations.OrphanTimeoutDropsHolds := by
  intro p s due
  have exec_eq : exec (.orphanTimeout p) s = .next (dropOrphans p s) := congrArg Host.Outcome.next (if_pos due)
  have auth (q : Port) := dropOrphans_auth p q s
  refine ⟨_, exec_eq, dropOrphans_elem p s, by rw [auth, if_pos rfl], fun q hq => by rw [auth, if_neg hq], ?_⟩
  obtain ⟨u, only, raises⟩ := dropOrphans_raises p s
  have reported := raise_reported u .holdsDropped (byteOf p.val) (wordOf (s.orphans p).length)
  have events := raise_events u .holdsDropped (byteOf p.val) (wordOf (s.orphans p).length)
  rw [← raises] at reported events
  refine ⟨?_, by rw [reported.masks, only.rpu], fun q => only.port q ▸ reported.ports q, reported.time.trans only.time,
    reported.cfg.trans only.cfg, by rw [reported.etu, only.alarmed], by rw [reported.etu, only.reports],
    reported.dpm.trans only.dpm, reported.zones.trans only.zones, reported.csc.trans only.csc,
    reported.flc.trans only.flc, reported.pending.trans only.pending⟩
  rw [events, only.rpu, only.time]
  rfl

/-! ### The owners of CLAIM, RELEASE, GRANT and REVOKE -/

/-- A byte names a configured and enabled element. -/
structure Named (s : State) (b : Byte) (e : ElemId) (c : ElementCfg) : Prop where
  place   : s.elem? b = some (e, c)
  enabled : (s.elem e).enabled = true

section
variable {p q : Port} {b : Byte} {e : ElemId} {c : ElementCfg} {s : State}

theorem ownClaim_outOfReach (run : s.cfg.startUp = .run) (n : Named s b e c) (far : s.reaches p c = false) :
    ownClaim p (some b) s = refuse .role s := by
  simp [ownClaim, run, n.place, n.enabled, far]

theorem ownClaim_free (run : s.cfg.startUp = .run) (n : Named s b e c) (near : s.reaches p c = true)
    (free : (s.elem e).hold = .none) : ownClaim p (some b) s = answer .ok [] (setHold e (.held p) s) := by
  simp [ownClaim, run, n.place, n.enabled, near, free]

theorem ownClaim_own (run : s.cfg.startUp = .run) (n : Named s b e c) (near : s.reaches p c = true)
    (own : (s.elem e).hold = .held p) : ownClaim p (some b) s = answer .ok [] s := by
  simp [ownClaim, run, n.place, n.enabled, near, own]

theorem ownClaim_other (run : s.cfg.startUp = .run) (n : Named s b e c) (near : s.reaches p c = true)
    (other : (s.elem e).hold = .held q) (hq : q ≠ p) :
    ownClaim p (some b) s = answer .held [1, byteOf q.val] s := by
  simp [ownClaim, run, n.place, n.enabled, near, other, hq, Hold.codes]

theorem ownClaim_orphaned (run : s.cfg.startUp = .run) (n : Named s b e c) (near : s.reaches p c = true)
    (orphan : (s.elem e).hold = .orphaned q) (may : q = p ∨ s.role p = .bridge) :
    ownClaim p (some b) s = answer .ok [] (setHold e (.held p) s) := by
  simp [ownClaim, run, n.place, n.enabled, near, orphan, may]

theorem ownClaim_orphaned_other (run : s.cfg.startUp = .run) (n : Named s b e c) (near : s.reaches p c = true)
    (orphan : (s.elem e).hold = .orphaned q) (hq : q ≠ p) (hr : s.role p ≠ .bridge) :
    ownClaim p (some b) s = answer .held [2, byteOf q.val] s := by
  simp [ownClaim, run, n.place, n.enabled, near, orphan, hq, hr, Hold.codes]

theorem ownRelease_own (mode : s.cfg.startUp ≠ .unconfigured) (n : Named s b e c) (own : (s.elem e).hold = .held p) :
    ownRelease p (some b) s = answer .ok [] (setHold e .none s) := by
  simp [ownRelease, mode, n.place, n.enabled, own]

theorem ownRelease_other (mode : s.cfg.startUp ≠ .unconfigured) (n : Named s b e c)
    (other : (s.elem e).hold ≠ .held p) : ownRelease p (some b) s = refuse .notHeld s := by
  simp [ownRelease, mode, n.place, n.enabled, other]

/-- A port's number as a byte names that port. -/
theorem index_byteOf (q : Port) : index? 4 (byteOf q.val) = some q := by
  revert q
  decide

theorem ownGrant_up (run : s.cfg.startUp = .run) (bridge : s.role p = .bridge) (n : Named s b e c)
    (up : (s.auth q).linkUp = true) (near : s.reaches q c = true) :
    ownGrant p (some (b, byteOf q.val)) s = answer .ok (s.elem e).hold.codes (setHold e (.held q) s) := by
  simp [ownGrant, run, bridge, n.place, n.enabled, index_byteOf, up, near]

theorem ownGrant_condition (run : s.cfg.startUp = .run) (bridge : s.role p = .bridge) (n : Named s b e c)
    (fails : (s.auth q).linkUp = false ∨ s.reaches q c = false) :
    ownGrant p (some (b, byteOf q.val)) s = refuse .condition s := by
  simp [ownGrant, run, bridge, n.place, n.enabled, index_byteOf, fails]

theorem ownRevoke_enabled (mode : s.cfg.startUp ≠ .unconfigured) (bridge : s.role p = .bridge) (n : Named s b e c) :
    ownRevoke p (some b) s = answer .ok (s.elem e).hold.codes (setHold e .none s) := by
  simp [ownRevoke, mode, bridge, n.place, n.enabled]

end

/-! ### Their requests -/

/-! A reserved place changes nothing that these owners read. -/

theorem reserve_role (s : State) (p q : Port) (seq code : Byte) : (s.reserve p seq code).role q = s.role q :=
  modPort_role s p q _ fun _ => rfl

theorem reserve_reaches (s : State) (p q : Port) (seq code : Byte) (c : ElementCfg) :
    (s.reserve p seq code).reaches q c = s.reaches q c := by
  unfold State.reaches
  rw [reserve_role]
  rfl

theorem Named.reserve {s : State} {b : Byte} {e : ElemId} {c : ElementCfg} (n : Named s b e c) (p : Port)
    (seq code : Byte) : Named (s.reserve p seq code) b e c := ⟨n.place, n.enabled⟩

theorem setHold_reserve (e : ElemId) (h : Hold) (s : State) (p : Port) (seq code : Byte) :
    setHold e h (s.reserve p seq code) = (setHold e h s).reserve p seq code := by
  have orphans (u : State) (q : Port) : (u.reserve p seq code).orphans q = u.orphans q := rfl
  have moved : (s.reserve p seq code).modElem e (fun r => { r with hold := h }) =
      (s.modElem e fun r => { r with hold := h }).reserve p seq code := rfl
  unfold setHold
  dsimp only
  rw [moved, show (s.reserve p seq code).elem e = s.elem e from rfl]
  split
  · unfold emptiedOrphans
    rw [orphans]
    split <;> rfl
  · rfl

/-- A hold that was not ORPHANED leaves no orphan set (R74). -/
theorem setHold_of_not_orphaned {e : ElemId} {h : Hold} {s : State} (hs : ∀ q, (s.elem e).hold ≠ .orphaned q) :
    setHold e h s = s.modElem e fun r => { r with hold := h } := by
  unfold setHold
  dsimp only
  split
  · next q hq => exact absurd hq (hs q)
  · rfl

theorem setHold_port (e : ElemId) (h : Hold) (s : State) (q : Port) : (setHold e h s).port q = s.port q := by
  obtain ⟨-, -, ports, -⟩ := setHold_else e h s
  unfold State.port
  rw [ports]

/-- A request whose work is one hold: its response and that hold are all that changes (R173). -/
theorem request_setsHold {p : Port} {s : State} {owner : Owner} {seq code : Byte} {a : Answer} {data : List Byte}
    {e : ElemId} {h : Hold} (hr : Ready p s)
    (ho : owner (s.reserve p seq code) = answer a data (setHold e h (s.reserve p seq code))) :
    request p seq code owner s = answered p seq code a data (setHold e h s) := by
  refine request_works hr (by rw [ho, setHold_reserve]; rfl) (setHold_port e h s p) (fun d => ?_) (fun d _ => ?_)
  · rw [setHold_elem]; split <;> rfl
  · rw [setHold_elem]; split <;> rfl

theorem answered_responded {p : Port} {s u : State} (seq code : Byte) (a : Answer) (data : List Byte)
    (h : u.port p = s.port p) : Responded p seq code a data s (answered p seq code a data u) := by
  refine ⟨[], ?_, by simp⟩
  unfold answered
  rw [modPort_port, if_pos rfl, h]

theorem answered_setHold_onlyHolds (p : Port) (seq code : Byte) (a : Answer) (data : List Byte) (e : ElemId) (h : Hold)
    (hno : ∀ q, h ≠ .orphaned q) (s : State) : OnlyHolds s (answered p seq code a data (setHold e h s)) := by
  obtain ⟨time, cfg, -, alarmed, reports, dpm, zones, csc, rpu, flc, pending⟩ := setHold_else e h s
  refine ⟨time, cfg, fun q => ?_, fun d => ?_, fun q => ?_, alarmed, reports, dpm, zones, csc, rpu, flc, pending⟩
  · unfold answered
    rw [modPort_port, setHold_port]
    split
    · rfl
    · exact PortKept.refl _
  · change (setHold e h s).elem d = { s.elem d with hold := ((setHold e h s).elem d).hold }
    rw [setHold_elem]
    split <;> rfl
  · change ((setHold e h s).auth q).linkUp = _
    rw [setHold_auth e h hno]
    split <;> rfl

/-- Settles O32, case by case of the hold that the element has. -/
theorem claimAndReleaseMoveTheHold : Obligations.ClaimAndReleaseMoveTheHold := by
  refine ⟨fun p seq b e c s ready run place enabled => ?_, fun p seq b e c s ready mode place enabled => ?_⟩
  · have named := Named.reserve ⟨place, enabled⟩ p seq 0x20
    refine ⟨fun far => ?_, fun near => ?_⟩
    · exact congrArg _ (request_answers ready
        (ownClaim_outOfReach run named ((reserve_reaches s p p seq 0x20 c).trans far)))
    have near := (reserve_reaches s p p seq 0x20 c).trans near
    refine ⟨fun free => ?_, fun own => ?_, fun q other hq => ?_, fun q orphan hq hb => ?_, fun q orphan may => ?_⟩
    · rw [← setHold_of_not_orphaned (by simp [free])]
      exact congrArg _ (request_setsHold ready (ownClaim_free run named near free))
    · exact congrArg _ (request_answers ready (ownClaim_own run named near own))
    · exact congrArg _ (request_answers ready (ownClaim_other run named near other hq))
    · exact congrArg _ (request_answers ready
        (ownClaim_orphaned_other run named near orphan hq (by rw [reserve_role]; exact hb)))
    · have taken := request_setsHold ready (ownClaim_orphaned run named near orphan (by rw [reserve_role]; exact may))
      have hno : ∀ r, Hold.held p ≠ .orphaned r := by simp
      have auth (r : Port) := setHold_auth e (.held p) hno s r
      refine ⟨_, congrArg Host.Outcome.next taken, answered_responded _ _ _ _ (setHold_port _ _ _ _),
        answered_setHold_onlyHolds _ _ _ _ _ _ _ hno s, ?_, fun d hd => ?_, fun r hr => ?_, ?_⟩
      · change ((setHold e (.held p) s).elem e).hold = _
        rw [setHold_elem, if_pos rfl]
      · change (setHold e (.held p) s).elem d = _
        rw [setHold_elem, if_neg hd]
      · change (setHold e (.held p) s).auth r = _
        rw [auth, if_neg]
        rintro ⟨hold, -⟩
        exact hr (Hold.orphaned.inj (hold.symm.trans orphan))
      · change ((setHold e (.held p) s).auth q).orphan = _
        rw [auth]
        by_cases more : ∃ d, d ≠ e ∧ (s.elem d).hold = .orphaned q
        · obtain ⟨d, hd, hold⟩ := more
          rw [if_neg (fun k => k.2 d hd hold), if_pos ⟨d, hd, hold⟩]
        · rw [if_pos ⟨orphan, fun d hd hold => more ⟨d, hd, hold⟩⟩, if_neg more]
  · have named := Named.reserve ⟨place, enabled⟩ p seq 0x21
    refine ⟨fun own => ?_, fun other => ?_⟩
    · rw [← setHold_of_not_orphaned (by simp [own])]
      exact congrArg _ (request_setsHold ready (ownRelease_own mode named own))
    · exact congrArg _ (request_answers ready (ownRelease_other mode named other))

/-- What GRANT and REVOKE have in common: the hold is set, the response names the former hold, and an orphan set that has lost
its last element stops its timer (R69, R70, R74). -/
theorem bridge_setsHold {p : Port} {s : State} {seq code : Byte} {e : ElemId} {h : Hold} {owner : Owner}
    (ready : Ready p s) (hno : ∀ r, h ≠ .orphaned r)
    (ho : owner (s.reserve p seq code) = answer .ok (s.elem e).hold.codes (setHold e h (s.reserve p seq code))) :
    ∃ t, Host.Outcome.next (request p seq code owner s) = (.next t : Result) ∧
      Responded p seq code .ok (s.elem e).hold.codes s t ∧ OnlyHolds s t ∧ (t.elem e).hold = h ∧
      (∀ d, d ≠ e → t.elem d = s.elem d) ∧
      ∀ r, (t.auth r).orphan = if (s.elem e).hold = .orphaned r ∧ ∀ d, d ≠ e → (s.elem d).hold ≠ .orphaned r then none
        else (s.auth r).orphan := by
  refine ⟨_, congrArg _ (request_setsHold ready ho), answered_responded _ _ _ _ (setHold_port _ _ _ _),
    answered_setHold_onlyHolds _ _ _ _ _ _ _ hno s, ?_, fun d hd => ?_, fun r => ?_⟩
  · change ((setHold e h s).elem e).hold = h
    rw [setHold_elem, if_pos rfl]
  · change (setHold e h s).elem d = s.elem d
    rw [setHold_elem, if_neg hd]
  · change ((setHold e h s).auth r).orphan = _
    rw [setHold_auth e h hno, apply_ite AuthRec.orphan]

/-- Settles O33: GRANT and REVOKE each set one hold. -/
theorem bridgeMovesHolds : Obligations.BridgeMovesHolds := by
  intro p q seq b e c s ready bridge place enabled
  have named (code : Byte) := Named.reserve ⟨place, enabled⟩ p seq code
  have bridge (code : Byte) := (reserve_role s p p seq code).trans bridge
  have reach (code : Byte) := reserve_reaches s p q seq code c
  refine ⟨fun run up near => ?_, fun run fails => ?_, fun mode => ?_⟩
  · exact bridge_setsHold ready (by simp) (ownGrant_up run (bridge _) (named _) up ((reach _).trans near))
  · exact congrArg _ (request_answers ready
      (ownGrant_condition run (bridge _) (named _) (fails.imp id fun far => (reach _).trans far)))
  · exact bridge_setsHold ready (by simp) (ownRevoke_enabled mode (bridge _) (named _))

end Sys2Proof.Machine.Authority

/-!
A port that comes UP and a port that is lost (R72, R73, R176, R177): what the event's attentions leave at each port, and the
whole next state of a first POLL and of a silence of tSIL.
-/

namespace Sys2Proof.Machine.Authority

/-! ### What an event leaves at each port -/

theorem attend_fold_port (admits : Port → Bool) (code : Byte) (payload : List Byte) (q : Port) (l : List Port)
    (hl : l.Nodup) (s : State) :
    (l.foldl (fun s p => if admits p then s.modPort p (PortRec.attend code payload) else s) s).port q =
      if q ∈ l ∧ admits q = true then (s.port q).attend code payload else s.port q := by
  induction l generalizing s with
  | nil => simp
  | cons p l ih =>
    obtain ⟨fresh, hl⟩ := List.nodup_cons.1 hl
    rw [List.foldl_cons, ih hl]
    by_cases hq : q = p
    · subst hq
      by_cases ha : admits q = true <;> simp [fresh, ha]
    · by_cases ha : admits p = true <;> simp [hq, ha]

/-- An attention reaches exactly the ports it is handed to (R175). -/
theorem attend_port (s : State) (admits : Port → Bool) (code : Byte) (payload : List Byte) (q : Port) :
    (s.attend admits code payload).port q =
      if admits q = true then (s.port q).attend code payload else s.port q := by
  unfold State.attend
  rw [attend_fold_port admits code payload q _ (List.nodup_finRange 4) s]
  simp

theorem attend_eq_attended (code : Byte) (payload : List Byte) (r : PortRec) :
    r.attend code payload = r.attended code payload := by
  have room : 2 ≤ r.free ↔ ¬ 14 < r.tx.length := by unfold PortRec.free txCapacity; omega
  unfold PortRec.attend PortRec.attended
  simp only [room, ite_not]
  split
  · split
    · rfl
    · cases r.owed <;> simp [attnOwed]
  · rfl

theorem hearsEvents_iff (s : State) (q : Port) : s.hearsEvents q = true ↔ s.role q = .bridge ∨ s.role q = .safety := by
  simp [State.hearsEvents]

/-- A port after an event, whether the event joined the queue or not (R164). -/
theorem raise_port (s : State) (k : EventKind) (source : Byte) (detail : Word16) (q : Port) :
    (s.raise k source detail).port q =
      if s.rpu.events.length < eventCapacity then s.portAfterEvent k q else s.port q := by
  unfold State.raise
  split
  · rw [attend_port, attend_eq_attended]
    unfold State.portAfterEvent
    simp only [hearsEvents_iff]
    rfl
  · rfl

/-- A port that is not UP is handed no attention (R175). -/
theorem attended_of_not_up {r : PortRec} (h : r.link ≠ .up) (code : Byte) (payload : List Byte) :
    r.attended code payload = r := if_pos h

/-- An UP port with room that owes no attention queues one (R175). -/
theorem attended_of_room {r : PortRec} (up : r.link = .up) (room : r.tx.length ≤ 14) (owed : r.owed = false)
    (code : Byte) (payload : List Byte) :
    r.attended code payload = { r with tx := r.tx ++ [.attention code payload] } := by
  unfold PortRec.attended
  rw [if_neg (by simpa using up), if_neg (by omega)]
  cases r
  simp_all

theorem attend_length (code : Byte) (payload : List Byte) (r : PortRec) :
    (r.attend code payload).tx.length ≤ r.tx.length + 1 := by
  unfold PortRec.attend
  split
  · exact Nat.le_succ _
  · split
    · split <;> simp
    · exact Nat.le_succ _

/-! ### A port that is lost -/

theorem portLostReport_onlyAuthority (p : Port) (s : State) : OnlyAuthority s (portLostReport p s) := by
  unfold portLostReport
  exact mapElems_modAuth_onlyAuthority s _ p _

/-- Settles O13: the line is cleared, the event goes out to the other ports, and the holds are orphaned. -/
theorem silenceLosesPort : Obligations.SilenceLosesPort := by
  intro p st s up silent noReset
  have quiet : (s.port p).tx.any TxPlace.isSoftOk = false := List.any_eq_false.2 fun t ht => by simp [noReset t ht]
  have exec_eq : exec (.silenceTimeout p st) s = .next (loseLink p s) := by
    refine congrArg Host.Outcome.next ((if_pos ⟨up, silent⟩).trans (if_neg ?_))
    simp [quiet]
  refine ⟨_, exec_eq, ?_⟩
  unfold loseLink
  have raised := raise_reported (s.modPort p PortRec.lose) .linkLost (byteOf p.val) 0
  have events := raise_events (s.modPort p PortRec.lose) .linkLost (byteOf p.val) 0
  have port := raise_port (s.modPort p PortRec.lose) .linkLost (byteOf p.val) 0
  generalize (s.modPort p PortRec.lose).raise .linkLost (byteOf p.val) 0 = u at raised events port ⊢
  have only := portLostReport_onlyAuthority p u
  have auth (q : Port) := portLostReport_auth p q u
  have elem (e : ElemId) : (portLostReport p u).elem e =
      { s.elem e with hold := if (s.elem e).hold = .held p then .orphaned p else (s.elem e).hold } := by
    rw [portLostReport_elem, raised.elem]
    rfl
  refine ⟨?_, fun q hq => ?_, by rw [auth, if_pos rfl], ?_, fun q hq => ?_, elem, ?_, by rw [only.rpu, raised.masks]; rfl,
    only.time.trans raised.time, only.cfg.trans raised.cfg, by rw [only.alarmed, raised.etu]; rfl,
    by rw [only.reports, raised.etu]; rfl, only.dpm.trans raised.dpm, only.zones.trans raised.zones,
    only.csc.trans raised.csc, only.flc.trans raised.flc, only.pending.trans raised.pending⟩
  · have lost : ((s.modPort p PortRec.lose).port p) = (s.port p).lose := by rw [modPort_port, if_pos rfl]
    have unheard : (s.modPort p PortRec.lose).portAfterEvent .linkLost p = (s.port p).lose := by
      unfold State.portAfterEvent
      rw [lost, attended_of_not_up (by simp [PortRec.lose]), ite_self]
    rw [only.port, port, unheard, lost, ite_self]
    rfl
  · rw [only.port]
    have kept := raised.ports q
    rwa [modPort_port, if_neg hq] at kept
  · rw [auth, if_pos rfl]
    dsimp only
    split
    · next none => exact .inr ⟨rfl, none⟩
    · next some => exact .inl ⟨rfl, by simpa using some⟩
  · rw [auth, if_neg hq, raised.auth]
    rfl
  · rw [only.rpu, events]
    rfl

/-! ### A port that comes UP -/

theorem portUpReport_onlyAuthority (p : Port) (s : State) : OnlyAuthority s (portUpReport p s) := by
  unfold portUpReport
  dsimp only
  split
  · exact mapElems_modAuth_onlyAuthority s _ p _
  · exact modAuth_onlyAuthority s p _

theorem modPort_of_fixed {s : State} {p : Port} {f : PortRec → PortRec} (h : f (s.port p) = s.port p) :
    s.modPort p f = s := by
  have : upd s.ports p f = s.ports := by
    unfold upd
    rw [show f s.ports[p] = s.ports[p] from h]
    exact Vector.set_getElem_self _
  unfold State.modPort
  rw [this]

/-- A frame that joins an empty receive FIFO of a port that is ready is handed on as its request row (R171, R173; log 1). -/
theorem handOn_receive {p : Port} {s : State} (q : Request) (ready : Ready p s) (calm : (s.port p).throttle = false) :
    handOn p (s.modPort p (PortRec.receive q)) = request p q.seq q.code (ownerOf p q.code q.payload) s := by
  obtain ⟨empty, can⟩ := ready
  have received : (s.modPort p (PortRec.receive q)).port p = { s.port p with rx := [q] } := by
    rw [modPort_port, if_pos rfl]
    unfold PortRec.receive
    rw [empty]
    rfl
  have popped : (s.modPort p (PortRec.receive q)).modPort p PortRec.popRequest = s := by
    rw [modPort_modPort]
    refine modPort_of_fixed ?_
    have : (s.port p).receive q = { s.port p with rx := [q] } := by rw [← received, modPort_port, if_pos rfl]
    rw [this]
    unfold PortRec.popRequest
    rw [if_neg (by simp [calm]), List.tail_cons, ← empty]
  have waits : ((s.modPort p (PortRec.receive q)).port p).rx = [q] := congrArg PortRec.rx received
  have handed : ((s.modPort p (PortRec.receive q)).port p).canHandOn = true :=
    (congrArg PortRec.canHandOn received).trans can
  unfold handOn
  rw [waits, request_ready ⟨empty, can⟩]
  change handOver p 1 _ = _
  unfold handOver
  rw [waits]
  dsimp only
  rw [if_pos handed, popped]
  rfl

theorem portKept_silence {a b : PortRec} (h : PortKept a b) : b.silence = a.silence := by rw [h]
theorem portKept_throttle {a b : PortRec} (h : PortKept a b) : b.throttle = a.throttle := by rw [h]

/-- A port's record as its first valid frame makes it UP (R176). -/
def comesUp (r : PortRec) : PortRec := { r with link := .up, silence := some tSil }

section
variable (p : Port) (s : State)

/-- The ETU's record of a port that has come UP, before the event goes out (R73, R176). -/
def broughtUp : State := portUpReport p (s.modPort p comesUp)

theorem broughtUp_onlyAuthority :
    OnlyAuthority (s.modPort p comesUp) (broughtUp p s) :=
  portUpReport_onlyAuthority p _

theorem broughtUp_port (q : Port) :
    (broughtUp p s).port q = if q = p then comesUp (s.port q) else s.port q := by
  rw [(broughtUp_onlyAuthority p s).port, modPort_port]

theorem broughtUp_role (q : Port) : (broughtUp p s).role q = s.role q := by
  unfold State.role
  rw [broughtUp_port]
  split <;> rfl

theorem broughtUp_elem (e : ElemId) :
    (broughtUp p s).elem e =
      { s.elem e with
        hold := if (s.elem e).hold = .orphaned p ∧ (s.auth p).orphan.isSome then .held p else (s.elem e).hold } :=
  portUpReport_elem p _ e

theorem broughtUp_auth (q : Port) :
    (broughtUp p s).auth q = if q = p then { linkUp := true, orphan := none } else s.auth q :=
  portUpReport_auth p q _

/-- The notice of an element does not tell its hold. -/
theorem broughtUp_elementNotice (e : ElemId) : (broughtUp p s).elementNotice e = s.elementNotice e := by
  unfold State.elementNotice
  rw [broughtUp_elem]
  rfl

theorem broughtUp_firstReport (m : ClassMask) : (broughtUp p s).firstReport m = s.firstReport m := by
  unfold State.firstReport
  rw [(broughtUp_onlyAuthority p s).reports]
  congr 1
  funext e
  rw [broughtUp_elem]
  rfl

/-- The state after LINK_UP, whose attention goes to the ports of role BRIDGE and SAFETY (R164). -/
def linkUpRaised : State := (broughtUp p s).raise .linkUp (byteOf p.val) 0

theorem linkUpRaised_reported : Reported (broughtUp p s) (linkUpRaised p s) := raise_reported _ _ _ _

theorem portUp_reported : Reported (broughtUp p s) (portUp p s) :=
  (linkUpRaised_reported p s).trans (upAttention_reported _ p _)

theorem portUp_other {q : Port} (hq : q ≠ p) : (portUp p s).port q = (linkUpRaised p s).port q := by
  change (upAttention (linkUpRaised p s).rpu.masks[p] p (linkUpRaised p s)).port q = _
  unfold upAttention
  split
  · rw [modPort_port, if_neg hq]
  · rfl

theorem linkUpRaised_port (q : Port) :
    (linkUpRaised p s).port q =
      if s.rpu.events.length < eventCapacity then (broughtUp p s).portAfterEvent .linkUp q else (broughtUp p s).port q := by
  unfold linkUpRaised
  rw [raise_port, (broughtUp_onlyAuthority p s).rpu]
  rfl

theorem linkUpRaised_firstReport (m : ClassMask) : (linkUpRaised p s).firstReport m = s.firstReport m := by
  rw [← broughtUp_firstReport p s m]
  unfold State.firstReport
  rw [(linkUpRaised_reported p s).etu]
  simp only [(linkUpRaised_reported p s).elem]

theorem linkUpRaised_elementNotice (e : ElemId) : (linkUpRaised p s).elementNotice e = s.elementNotice e := by
  rw [← broughtUp_elementNotice p s e]
  unfold State.elementNotice
  rw [(linkUpRaised_reported p s).elem]

theorem linkUpRaised_masks : (linkUpRaised p s).rpu.masks = s.rpu.masks := by
  rw [(linkUpRaised_reported p s).masks, (broughtUp_onlyAuthority p s).rpu]
  rfl

/-- The attention of LINK_UP at the port that has come UP (R164). -/
def heardLinkUp : List TxPlace :=
  if (s.role p = .bridge ∨ s.role p = .safety) ∧ s.rpu.events.length < 16 then [.attention 0x02 [4]] else []

/-- The attention for the oldest report-list entry that the port's mask admits (R161). -/
def oldestReport : List TxPlace :=
  match s.firstReport s.rpu.masks[p] with
  | some e => [.attention 0x01 (s.elementNotice e)]
  | none => []

/-- The port after the report of its link: its FIFO ends with the oldest report of its mask, if one is listed (R161). -/
theorem portUp_port_listed {e : ElemId} (h : s.firstReport s.rpu.masks[p] = some e) :
    (portUp p s).port p = ((linkUpRaised p s).port p).attended 0x01 (s.elementNotice e) := by
  change (upAttention (linkUpRaised p s).rpu.masks[p] p (linkUpRaised p s)).port p = _
  unfold upAttention
  simp only [linkUpRaised_masks, linkUpRaised_firstReport, h]
  rw [modPort_port, if_pos rfl, linkUpRaised_elementNotice, attend_eq_attended]
  rfl

theorem portUp_port_unlisted (h : s.firstReport s.rpu.masks[p] = none) :
    (portUp p s).port p = (linkUpRaised p s).port p := by
  change (upAttention (linkUpRaised p s).rpu.masks[p] p (linkUpRaised p s)).port p = _
  unfold upAttention
  simp only [linkUpRaised_masks, linkUpRaised_firstReport, h]

theorem broughtUp_port_self :
    (broughtUp p s).port p = comesUp (s.port p) := by
  rw [broughtUp_port, if_pos rfl]

/-- The two attentions of the event in their order, where none was owed (R161, R164, R175). -/
theorem portUp_tx (empty : (s.port p).tx = []) (owed : (s.port p).owed = false) :
    ((portUp p s).port p).tx = heardLinkUp p s ++ oldestReport p s := by
  have raised : ((linkUpRaised p s).port p).link = .up ∧ ((linkUpRaised p s).port p).owed = false ∧
      ((linkUpRaised p s).port p).tx = heardLinkUp p s := by
    rw [linkUpRaised_port]
    unfold State.portAfterEvent heardLinkUp
    rw [broughtUp_role, broughtUp_port_self]
    by_cases room : s.rpu.events.length < eventCapacity
    · by_cases hears : s.role p = .bridge ∨ s.role p = .safety
      · rw [if_pos room, if_pos hears, if_pos ⟨hears, room⟩,
          attended_of_room (r := comesUp (s.port p)) rfl (by simp [comesUp, empty]) owed]
        exact ⟨rfl, owed, congrArg (· ++ _) empty⟩
      · rw [if_pos room, if_neg hears, if_neg (fun k => hears k.1)]
        exact ⟨rfl, owed, empty⟩
    · rw [if_neg room, if_neg (fun k => room k.2)]
      exact ⟨rfl, owed, empty⟩
  obtain ⟨up, free, heard⟩ := raised
  have short : (heardLinkUp p s).length ≤ 14 := by
    unfold heardLinkUp
    split <;> simp
  unfold oldestReport
  split
  · next e listed =>
    rw [portUp_port_listed p s listed, attended_of_room up (heard ▸ short) free, heard]
  · next unlisted =>
    rw [portUp_port_unlisted p s unlisted, heard, List.append_nil]

/-- The port that has come UP takes the request that brought it UP (R173). -/
theorem portUp_ready (rx : (s.port p).rx = []) (tx : (s.port p).tx = []) : Ready p (portUp p s) := by
  have grew := (portUp_reported p s).grew p
  rw [broughtUp_port_self] at grew
  obtain ⟨rest, grows, attentions⟩ := grew.grows
  have unreserved : ((portUp p s).port p).tx.all (fun t => !t.isReserved) = true := by
    rw [grows]
    simp only [comesUp, tx, List.nil_append, List.all_eq_true]
    intro t ht
    obtain ⟨c, d, rfl⟩ := attentions t ht
    rfl
  have once : ((linkUpRaised p s).port p).tx.length ≤ 1 := by
    rw [linkUpRaised_port]
    unfold State.portAfterEvent
    rw [broughtUp_port_self, ← attend_eq_attended]
    split
    · split
      · exact (attend_length _ _ _).trans (by simp [comesUp, tx])
      · simp [comesUp, tx]
    · simp [comesUp, tx]
  have twice : ((portUp p s).port p).tx.length ≤ 2 := by
    cases h : s.firstReport s.rpu.masks[p] with
    | some e =>
      rw [portUp_port_listed p s h, ← attend_eq_attended]
      exact (attend_length _ _ _).trans (Nat.succ_le_succ once)
    | none => rw [portUp_port_unlisted p s h]; exact once.trans (by decide)
  refine ⟨grew.kept.rx.trans rx, ?_⟩
  unfold PortRec.canHandOn
  rw [unreserved, grew.kept.link]
  have room : ((portUp p s).port p).tx.length < txCapacity := Nat.lt_of_le_of_lt twice (by decide)
  simp [comesUp, room]

end

/-- A first POLL is answered in the state of the port that has come UP (R173, R176, R179). -/
theorem firstPoll_exec {p : Port} {chars : List LineChar} {seq : Byte} {s : State}
    (down : (s.port p).link = .down ∨ (s.port p).link = .lost) (idle : (s.port p).sending = false)
    (rx : (s.port p).rx = []) (tx : (s.port p).tx = []) (calm : (s.port p).throttle = false)
    (frame : receiveStation p chars = some { seq := seq, code := 0x01, payload := [] }) :
    exec (.stationFrameReceived p chars) s = .next (answered p seq 0x01 .ok [] (portUp p s)) := by
  have listens : (s.port p).listens = true := by
    unfold PortRec.listens
    rcases down with h | h <;> simp [h, idle]
  have supervised : supervise p s = portUp p s := if_neg (by rcases down with h | h <;> simp [h])
  have grew := (portUp_reported p s).grew p
  rw [broughtUp_port_self] at grew
  have still : ((portUp p s).port p).throttle = false := (portKept_throttle grew.kept).trans calm
  have ready := portUp_ready p s rx tx
  change Host.Outcome.next (if (s.port p).listens = true then _ else _) = _
  rw [if_pos listens, frame]
  dsimp only
  rw [supervised, handOn_receive _ ready still]
  exact congrArg _ (request_answers ready rfl)

/-- Settles O11: the port comes UP, and the POLL is answered in that state. -/
theorem firstFrameBringsPortUp : Obligations.FirstFrameBringsPortUp := by
  intro p chars seq s down idle rx tx calm frame
  have exec_eq := firstPoll_exec down idle rx tx calm frame
  have reported := portUp_reported p s
  have only := broughtUp_onlyAuthority p s
  have elem := broughtUp_elem p s
  have auth := broughtUp_auth p s
  have grew := reported.grew p
  rw [broughtUp_port_self] at grew
  obtain ⟨attns, grows, attentions⟩ := grew.grows
  have alone : (comesUp (s.port p)).tx = [] := tx
  rw [alone, List.nil_append] at grows
  have sent := portUp_tx p s tx
  have events : (portUp p s).rpu.events = eventJoined s .linkUp (byteOf p.val) 0 := by
    have joined := raise_events (broughtUp p s) .linkUp (byteOf p.val) 0
    rw [only.rpu, only.time] at joined
    exact (congrArg Rpu.events (upAttention_rpu _ p (linkUpRaised p s))).trans joined
  have others (q : Port) (hq : q ≠ p) : (portUp p s).port q =
      if s.rpu.events.length < 16 then s.portAfterEvent .linkUp q else s.port q := by
    rw [portUp_other p s hq, linkUpRaised_port]
    unfold State.portAfterEvent
    rw [broughtUp_role, broughtUp_port, if_neg hq]
    rfl
  generalize broughtUp p s = v at reported only elem auth
  generalize portUp p s = u at exec_eq reported grew grows sent events others
  have self : (answered p seq 0x01 .ok [] u).port p =
      { u.port p with tx := (u.port p).tx ++ [.response seq 0x01 [0x00]] } := by
    unfold answered
    rw [modPort_port, if_pos rfl]
    rfl
  refine ⟨_, exec_eq, ?_, ?_, ?_, ⟨attns, ?_, attentions⟩, ?_, fun q hq => ?_, fun e => ?_, events, ?_, fun q hq => ?_,
    fun owed => ?_, reported.time.trans only.time, reported.cfg.trans only.cfg, ?_, ?_, reported.dpm.trans only.dpm,
    reported.zones.trans only.zones, reported.csc.trans only.csc, reported.flc.trans only.flc,
    reported.pending.trans only.pending⟩
  · rw [self]; exact grew.kept.link
  · rw [self]; exact portKept_silence grew.kept
  · rw [self]; exact grew.kept.rx.trans rx
  · rw [self, grows]
  · exact (reported.auth p).trans ((auth p).trans (if_pos rfl))
  · exact (reported.auth q).trans ((auth q).trans (if_neg hq))
  · exact (reported.elem e).trans (elem e)
  · exact reported.masks.trans (congrArg Rpu.masks only.rpu)
  · unfold answered
    rw [modPort_port, if_neg hq, others q hq]
  · rw [self]
    exact congrArg (· ++ [TxPlace.response seq 0x01 [0x00]]) (sent owed)
  · exact (congrArg Etu.alarmed reported.etu).trans only.alarmed
  · exact (congrArg Etu.reports reported.etu).trans only.reports

end Sys2Proof.Machine.Authority

/-!
Slots and waiters (R79, R89, R91): the elements that hold or wait, and what the Drive Power Manager's tasks keep of them. While a
release is still to come, an element may hold or wait although its operation has ended (R46).
-/

namespace Sys2Proof.Machine.Slots

/-! ### The elements that hold or wait -/

/-- The elements that hold a slot, unit by unit (R79). -/
def holding (s : State) : List ElemId := units.flatMap fun u => (s.unit u).holders.map Holder.elem

theorem slotUsers_eq (s : State) : s.slotUsers = holding s ++ s.dpm.queue.map Waiter.elem := rfl

theorem mem_holding {s : State} {e : ElemId} : e ∈ holding s ↔ ∃ u, ∃ h ∈ (s.unit u).holders, h.elem = e := by
  simp [holding, units]

theorem holding_of_same {s t : State} (h : ∀ u, (t.unit u).holders = (s.unit u).holders) : holding t = holding s := by
  unfold holding
  simp only [h]

theorem slotUsers_of_same {s t : State} (h : ∀ u, (t.unit u).holders = (s.unit u).holders)
    (hq : t.dpm.queue = s.dpm.queue) : t.slotUsers = s.slotUsers := by
  rw [slotUsers_eq, slotUsers_eq, holding_of_same h, hq]

/-- Fewer holders and fewer waiters. -/
theorem slotUsers_sublist {s t : State} (h : ∀ u, (t.unit u).holders.Sublist (s.unit u).holders)
    (hq : t.dpm.queue.Sublist s.dpm.queue) : t.slotUsers.Sublist s.slotUsers := by
  rw [slotUsers_eq, slotUsers_eq]
  refine List.Sublist.append ?_ (hq.map _)
  unfold holding
  induction units with
  | nil => exact .slnil
  | cons u us ih =>
    rw [List.flatMap_cons, List.flatMap_cons]
    exact ((h u).map _).append ih

/-- The holders of one unit, and beside them those that a change of this unit alone leaves. -/
theorem holding_split {s t : State} {u : UnitId} (h : ∀ v, v ≠ u → (t.unit v).holders = (s.unit v).holders) :
    ∃ rest, (holding s).Perm ((s.unit u).holders.map Holder.elem ++ rest) ∧
      (holding t).Perm ((t.unit u).holders.map Holder.elem ++ rest) := by
  have split : ∀ r : State, (holding r).Perm ((r.unit u).holders.map Holder.elem ++
      (units.erase u).flatMap fun v => (r.unit v).holders.map Holder.elem) := fun r =>
    (List.perm_cons_erase (List.mem_finRange u)).flatMap_right _
  refine ⟨_, split s, ?_⟩
  have rest : ((units.erase u).flatMap fun v => (t.unit v).holders.map Holder.elem) =
      (units.erase u).flatMap fun v => (s.unit v).holders.map Holder.elem :=
    List.flatMap_congr fun v hv => by rw [h v ((List.nodup_finRange 4).mem_erase_iff.1 hv).1]
  rw [← rest]
  exact split t

/-! ### Slots held once, releases still to come -/

/-- An element's pending ENDED stands with the activity ENDED (R26, R46, R156). -/
def EndedFits (r : ElemRun) : Prop := r.pend.ended = true → r.activity = .ended

/-- Slots are held and waited for once, but that elements which are leaving need not have an operation in progress. -/
structure HeldBut (leaving : ElemId → Prop) (s : State) : Prop where
  nodup   : s.slotUsers.Nodup
  powered : ∀ e ∈ s.slotUsers, ∃ c, s.elemCfg e = some c ∧ isDoor c = false
  working : ∀ e ∈ s.slotUsers, (s.elem e).activity.inProgress = true ∨ leaving e
  ended   : ∀ e, EndedFits (s.elem e)

theorem heldOnce_iff (s : State) : SlotsHeldOnce s ↔ HeldBut (fun _ => False) s := by
  constructor
  · rintro ⟨nodup, users, ended⟩
    exact ⟨nodup, fun e he => (users e he).2, fun e he => .inl (users e he).1, ended⟩
  · rintro ⟨nodup, powered, working, ended⟩
    exact ⟨nodup, fun e he => ⟨(working e he).resolve_right id, powered e he⟩, ended⟩

section
variable {L L' : ElemId → Prop} {s t : State}

theorem HeldBut.imp (h : HeldBut L s) (left : ∀ e, L e → L' e) : HeldBut L' s :=
  ⟨h.nodup, h.powered, fun e he => (h.working e he).imp_right (left e), h.ended⟩

/-- An element with no operation in progress neither holds nor waits, unless it is leaving. -/
theorem HeldBut.not_mem {e : ElemId} (h : HeldBut L s) (rest : (s.elem e).activity.inProgress = false) (stays : ¬ L e) :
    e ∉ s.slotUsers := by
  intro he
  rcases h.working e he with busy | leaving
  · rw [rest] at busy; cases busy
  · exact stays leaving

/-- A door neither holds nor waits (R86). -/
theorem HeldBut.door_not_mem {e : ElemId} {c : ElementCfg} (h : HeldBut L s) (hc : s.elemCfg e = some c)
    (door : isDoor c = true) : e ∉ s.slotUsers := by
  intro he
  obtain ⟨c', hc', not_door⟩ := h.powered e he
  cases hc.symm.trans hc'
  rw [door] at not_door
  cases not_door

/-- The slot-wait queue has at most 32 entries (R89). -/
theorem HeldBut.queue_le (h : HeldBut L s) : s.dpm.queue.length ≤ 32 := by
  have waiting : (s.dpm.queue.map Waiter.elem).Nodup := h.nodup.of_append_right
  simpa using waiting.length_le_card

/-- Holders and waiters go, and of those left, the ones that were leaving still are. -/
theorem HeldBut.shrink (h : HeldBut L s) (users : t.slotUsers.Sublist s.slotUsers) (cfg : t.cfg = s.cfg)
    (elem : ∀ e, t.elem e = s.elem e) (left : ∀ e ∈ t.slotUsers, L e → L' e) : HeldBut L' t := by
  refine ⟨h.nodup.sublist users, fun e he => ?_, fun e he => ?_, fun e => ?_⟩
  · unfold State.elemCfg
    rw [cfg]
    exact h.powered e (users.subset he)
  · rw [elem]
    exact (h.working e (users.subset he)).imp_right (left e he)
  · rw [elem]
    exact h.ended e

/-- One element moves. -/
theorem HeldBut.move {e : ElemId} (h : HeldBut L s) (m : AtElem e s t) (ended : EndedFits (t.elem e))
    (here : e ∈ s.slotUsers → (t.elem e).activity.inProgress = true ∨ L' e) (left : ∀ d, d ≠ e → L d → L' d) :
    HeldBut L' t := by
  have users : t.slotUsers = s.slotUsers := slotUsers_of_same (fun u => by rw [m.unit u]) (by rw [m.dpm])
  refine ⟨by rw [users]; exact h.nodup, fun d hd => ?_, fun d hd => ?_, fun d => ?_⟩
  · rw [m.elemCfg]
    exact h.powered d (users ▸ hd)
  · rw [users] at hd
    by_cases hde : d = e
    · subst hde; exact here hd
    · rw [m.others d hde]
      exact (h.working d hd).imp_right (left d hde)
  · by_cases hde : d = e
    · subst hde; exact ended
    · rw [m.others d hde]; exact h.ended d

end

/-- Nothing that slots depend on has changed: holders, waiters, activities, ENDED pending, and the configuration. -/
structure UsersKept (s t : State) : Prop where
  users    : t.slotUsers = s.slotUsers
  loaded   : t.cfg.loaded = s.cfg.loaded
  activity : ∀ e, (t.elem e).activity = (s.elem e).activity
  ended    : ∀ e, (t.elem e).pend.ended = (s.elem e).pend.ended

theorem UsersKept.refl (s : State) : UsersKept s s := ⟨rfl, rfl, fun _ => rfl, fun _ => rfl⟩

theorem UsersKept.trans {a b c : State} (h : UsersKept a b) (k : UsersKept b c) : UsersKept a c :=
  ⟨k.users.trans h.users, k.loaded.trans h.loaded, fun e => (k.activity e).trans (h.activity e),
    fun e => (k.ended e).trans (h.ended e)⟩

/-- A change outside the element records, the units, the queue and the configuration. -/
theorem UsersKept.of_same {s t : State} (dpm : t.dpm = s.dpm) (loaded : t.cfg.loaded = s.cfg.loaded)
    (elem : ∀ e, t.elem e = s.elem e) : UsersKept s t :=
  ⟨slotUsers_of_same (fun u => by unfold State.unit; rw [dpm]) (by rw [dpm]), loaded, fun e => by rw [elem],
    fun e => by rw [elem]⟩

theorem UsersKept.of_called {s t : State} (h : Called s t) : UsersKept s t := .of_same h.dpm (by rw [h.cfg]) h.elem

theorem UsersKept.of_reported {s t : State} (h : Reported s t) : UsersKept s t := .of_called h.toCalled

/-- A change of one unit that leaves its holders. -/
theorem modUnit_usersKept (s : State) (u : UnitId) (f : UnitRun → UnitRun) (hf : ∀ r, (f r).holders = r.holders) :
    UsersKept s (s.modUnit u f) := by
  refine ⟨slotUsers_of_same (fun v => ?_) rfl, rfl, fun _ => rfl, fun _ => rfl⟩
  rw [modUnit_unit]
  split
  · exact hf _
  · rfl

theorem drive_usersKept (s : State) (c : Option Chan) (b : Bool) : UsersKept s (s.drive c b) :=
  .of_same (drive_dpm s c b) (by rw [drive_cfg]) fun e => by unfold State.elem; rw [drive_etu]

/-- A start output is written into the field images alone (R188). -/
theorem driveStart_dpm (u : UnitId) (b : Bool) (s : State) : (driveStart u b s).dpm = s.dpm := drive_dpm s _ b
theorem driveStart_etu (u : UnitId) (b : Bool) (s : State) : (driveStart u b s).etu = s.etu := drive_etu s _ b
theorem driveStart_cfg (u : UnitId) (b : Bool) (s : State) : (driveStart u b s).cfg = s.cfg := drive_cfg s _ b

theorem driveStart_elem (u : UnitId) (b : Bool) (s : State) (e : ElemId) : (driveStart u b s).elem e = s.elem e := by
  unfold State.elem
  rw [driveStart_etu]

theorem driveStart_unit (u : UnitId) (b : Bool) (s : State) (v : UnitId) : (driveStart u b s).unit v = s.unit v := by
  unfold State.unit
  rw [driveStart_dpm]

theorem HeldBut.kept {L : ElemId → Prop} {s t : State} (h : HeldBut L s) (k : UsersKept s t) : HeldBut L t := by
  refine ⟨by rw [k.users]; exact h.nodup, fun e he => ?_, fun e he => ?_, fun e => ?_⟩
  · unfold State.elemCfg
    rw [k.loaded]
    exact h.powered e (k.users ▸ he)
  · rw [k.activity]
    exact h.working e (k.users ▸ he)
  · unfold EndedFits
    rw [k.activity, k.ended]
    exact h.ended e

theorem UsersKept.once {s t : State} (k : UsersKept s t) (h : SlotsHeldOnce s) : SlotsHeldOnce t :=
  (heldOnce_iff t).2 (((heldOnce_iff s).1 h).kept k)

/-! ### Grants and releases -/

/-- A grant: the element holds, and waits no more (R91). -/
theorem grantSlot_users (u : UnitId) (h : Holder) (s : State) :
    (grantSlot u h s).slotUsers.Perm
      (h.elem :: (holding s ++ (s.dpm.queue.filter fun w => w.elem ≠ h.elem).map Waiter.elem)) := by
  obtain ⟨rest, before, after⟩ := holding_split (s := s) (t := s.modUnit u (UnitRun.grant h)) (u := u)
    fun v hv => by rw [modUnit_unit, if_neg hv]
  have joined : (holding (s.modUnit u (UnitRun.grant h))).Perm (h.elem :: holding s) := by
    refine after.trans ?_
    rw [modUnit_unit, if_pos rfl]
    simp only [UnitRun.grant, List.map_append, List.map_cons, List.map_nil, List.append_assoc]
    exact List.perm_middle.trans (before.symm.cons _)
  exact joined.append_right _

section
variable {L : ElemId → Prop} {s : State}

/-- A powered element at work that holds nothing is granted a slot. -/
theorem HeldBut.grant (held : HeldBut L s) (u : UnitId) (h : Holder) (fresh : h.elem ∉ holding s)
    (powered : ∃ c, s.elemCfg h.elem = some c ∧ isDoor c = false)
    (working : (s.elem h.elem).activity.inProgress = true ∨ L h.elem) : HeldBut L (grantSlot u h s) := by
  have perm := grantSlot_users u h s
  have rest : (holding s ++ (s.dpm.queue.filter fun w => w.elem ≠ h.elem).map Waiter.elem).Sublist s.slotUsers :=
    (List.Sublist.refl _).append (List.filter_sublist.map _)
  have member : ∀ e ∈ (grantSlot u h s).slotUsers, e = h.elem ∨ e ∈ s.slotUsers := fun e he =>
    (List.mem_cons.1 (perm.mem_iff.1 he)).imp_right fun m => rest.subset m
  refine ⟨perm.nodup_iff.2 (List.nodup_cons.2 ⟨?_, held.nodup.sublist rest⟩), fun e he => ?_, fun e he => ?_, held.ended⟩
  · simp [fresh]
  · rcases member e he with rfl | he
    · exact powered
    · exact held.powered e he
  · rcases member e he with rfl | he
    · exact working
    · exact held.working e he

/-- A waiter holds nothing. -/
theorem HeldBut.waiter_fresh (held : HeldBut L s) {w : Waiter} (hw : w ∈ s.dpm.queue) : w.elem ∉ holding s := fun hm =>
  List.disjoint_of_nodup_append held.nodup hm (List.mem_map_of_mem hw)

theorem waiter_mem_users {w : Waiter} (hw : w ∈ s.dpm.queue) : w.elem ∈ s.slotUsers :=
  List.mem_append_right _ (List.mem_map_of_mem hw)

end

theorem leaveQueue_gone (e : ElemId) (s : State) : e ∉ (leaveQueue e s).dpm.queue.map Waiter.elem := by
  simp [leaveQueue]

theorem leaveQueue_sublist (e : ElemId) (s : State) : (leaveQueue e s).slotUsers.Sublist s.slotUsers :=
  slotUsers_sublist (fun _ => .refl _) List.filter_sublist

theorem slotOf_none {s : State} {e : ElemId} (h : s.slotOf e = none) : e ∉ holding s := by
  rw [mem_holding]
  rintro ⟨u, x, hx, hxe⟩
  have := List.find?_eq_none.1 h u (List.mem_finRange u)
  simp only [List.any_eq_true, decide_eq_true_eq, not_exists, not_and] at this
  exact this x hx hxe

theorem taskRelease_sublist (e : ElemId) (s : State) : (taskRelease e s).1.slotUsers.Sublist s.slotUsers := by
  unfold taskRelease
  split
  · refine slotUsers_sublist (fun v => ?_) (.refl _)
    rw [modUnit_unit]
    split
    · exact List.filter_sublist
    · exact .refl _
  · split
    · exact leaveQueue_sublist e s
    · exact .refl _

/-- What is released neither holds nor waits any more (R91). -/
theorem taskRelease_gone (e : ElemId) (s : State) (nodup : s.slotUsers.Nodup) : e ∉ (taskRelease e s).1.slotUsers := by
  unfold taskRelease
  split
  · next u hu =>
    obtain ⟨x, hx, hxe⟩ : ∃ x ∈ (s.unit u).holders, x.elem = e := by
      simpa using List.find?_some hu
    obtain ⟨rest, before, after⟩ := holding_split (s := s)
      (t := s.modUnit u fun r => { r with holders := r.holders.filter fun h => h.elem ≠ e }) (u := u)
      fun v hv => by rw [modUnit_unit, if_neg hv]
    have perm := before.append_right (s.dpm.queue.map Waiter.elem)
    rw [List.append_assoc] at perm
    have apart := List.disjoint_of_nodup_append (perm.nodup_iff.1 nodup) (List.mem_map.2 ⟨x, hx, hxe⟩)
    have perm' := after.append_right (s.dpm.queue.map Waiter.elem)
    rw [List.append_assoc] at perm'
    intro he
    rcases List.mem_append.1 (perm'.mem_iff.1 he) with hm | hm
    · rw [modUnit_unit, if_pos rfl] at hm
      obtain ⟨y, hy, hye⟩ := List.mem_map.1 hm
      simp [hye] at hy
    · exact apart hm
  · next none =>
    have hold := slotOf_none none
    split
    · intro he
      rcases List.mem_append.1 he with hm | hm
      · exact hold hm
      · exact leaveQueue_gone e s hm
    · next none =>
      intro he
      rcases List.mem_append.1 he with hm | hm
      · exact hold hm
      · obtain ⟨w, hw, hwe⟩ := List.mem_map.1 hm
        exact notWaiting_of_waits none w hw hwe

end Sys2Proof.Machine.Slots

/-!
How operations proceed (R29, R41, R44, R46): one that is not IDLE stays so, and ENDED is pending on none but one in ENDED. What tasks
keep of the slots follows.
-/

namespace Sys2Proof.Machine.Slots

/-! ### One element's operation -/

/-- An element's record as its operation proceeds or ends: it does not return to IDLE, and ENDED is pending as the activity says. -/
structure Proceeds (r r' : ElemRun) : Prop where
  busy  : r.activity ≠ .idle → r'.activity ≠ .idle
  ended : EndedFits r → EndedFits r'

theorem Proceeds.refl (r : ElemRun) : Proceeds r r := ⟨id, id⟩

theorem Proceeds.trans {a b c : ElemRun} (h : Proceeds a b) (k : Proceeds b c) : Proceeds a c :=
  ⟨fun x => k.busy (h.busy x), fun x => k.ended (h.ended x)⟩

theorem Proceeds.of_same {r r' : ElemRun} (activity : r'.activity = r.activity) (ended : r'.pend.ended = r.pend.ended) :
    Proceeds r r' := by
  refine ⟨fun h => by rw [activity]; exact h, fun h => ?_⟩
  unfold EndedFits
  rw [activity, ended]
  exact h

/-- An operation that becomes ACTIVE, or goes on in another activity, from one in which nothing has ended. -/
theorem Proceeds.of_running {r r' : ElemRun} (now : r'.activity ≠ .idle) (was : r.activity ≠ .ended)
    (ended : r'.pend.ended = r.pend.ended) : Proceeds r r' :=
  ⟨fun _ => now, fun fits pending => absurd (fits (ended ▸ pending)) was⟩

theorem inProgress_iff (a : Activity) : a.inProgress = true ↔ a ≠ .idle ∧ a ≠ .ended := by cases a <;> decide

/-- An operation in progress that has proceeded is in progress, or has ended. -/
theorem Proceeds.inProgress {r r' : ElemRun} (h : Proceeds r r') (was : r.activity.inProgress = true) :
    r'.activity.inProgress = true ∨ r'.activity = .ended := by
  have now := h.busy ((inProgress_iff _).1 was).1
  by_cases ended : r'.activity = .ended
  · exact .inr ended
  · exact .inl ((inProgress_iff _).2 ⟨now, ended⟩)

theorem modElem_proceeds (s : State) (e : ElemId) (f : ElemRun → ElemRun) (h : Proceeds (s.elem e) (f (s.elem e))) :
    Proceeds (s.elem e) ((s.modElem e f).elem e) := by
  rw [modElem_elem, if_pos rfl]
  exact h

theorem modOp_proceeds (s : State) (e : ElemId) (f : OpRec → OpRec) : Proceeds (s.elem e) ((s.modOp e f).elem e) :=
  modElem_proceeds s e _ (.of_same rfl rfl)

theorem setOwed_proceeds (e : ElemId) (b : Bool) (s : State) : Proceeds (s.elem e) ((setOwed e b s).elem e) :=
  modElem_proceeds s e _ (.of_same rfl rfl)

theorem raise_proceeds (e : ElemId) (s : State) (k : EventKind) (source : Byte) (detail : Word16) :
    Proceeds (s.elem e) ((s.raise k source detail).elem e) := by
  rw [(raise_reported s k source detail).elem]
  exact .refl _

theorem enterStage_proceeds (e : ElemId) (c : ElementCfg) (st : Stage) (s : State) :
    Proceeds (s.elem e) ((enterStage e c st s).elem e) := by
  unfold enterStage
  rw [writeOutputs_elem]
  refine modElem_proceeds s e _ ?_
  unfold ElemRun.enter
  split
  · exact .refl _
  · exact .of_same rfl rfl

theorem createClosure_proceeds (e : ElemId) (c : ElementCfg) (s : State) :
    Proceeds (s.elem e) ((createClosure e c s).elem e) := by
  refine Proceeds.trans (modElem_proceeds s e _ ?_) (enterStage_proceeds e c .warn _)
  dsimp only
  split
  · exact ⟨fun _ => by simp, fun _ => by simp [EndedFits, ElemRun.dropEnded]⟩
  · next was => exact .of_running (by simp) was rfl

theorem closureTest_proceeds (e : ElemId) (c : ElementCfg) (s : State) :
    Proceeds (s.elem e) ((closureTest e c s).elem e) := by
  unfold closureTest
  split
  · exact createClosure_proceeds e c s
  · exact .refl _

theorem endRecord_proceeds (e : ElemId) (code : Completion) (s : State) :
    Proceeds (s.elem e) ((endRecord e code s).elem e) := by
  unfold endRecord
  rw [writeOutputs_elem]
  refine modElem_proceeds s e _ ?_
  unfold ElemRun.finish
  split
  · exact .refl _
  · exact ⟨fun _ => by simp, fun _ _ => rfl⟩

theorem markedEnding_proceeds (e : ElemId) (code : Completion) (s : State) :
    Proceeds (s.elem e) ((markedEnding e code s).elem e) := by
  unfold markedEnding
  dsimp only
  have owed : Proceeds (s.elem e) ((if code.clearsOwed then setOwed e false s else s).elem e) := by
    split
    · exact setOwed_proceeds e false s
    · exact .refl _
  generalize (if code.clearsOwed then setOwed e false s else s) = u at owed ⊢
  refine owed.trans ?_
  split
  · exact raise_proceeds e u _ _ _
  · exact .refl _

theorem endOp_proceeds (e : ElemId) (code : Completion) (s : State) : Proceeds (s.elem e) ((endOp e code s).elem e) := by
  unfold endOp
  dsimp only
  split
  · refine Proceeds.trans ?_ (closureTest_proceeds e _ _)
    split
    · exact (endRecord_proceeds e code s).trans (markedEnding_proceeds e code _)
    · exact endRecord_proceeds e code s
  · exact endRecord_proceeds e code s

theorem settleStage_proceeds (n : Nat) (e : ElemId) (s : State) : Proceeds (s.elem e) ((settleStage n e s).elem e) := by
  induction n generalizing s with
  | zero => exact .refl _
  | succ n ih =>
    unfold settleStage
    split
    · split
      · split
        · exact (enterStage_proceeds e _ _ s).trans (ih _)
        · exact endOp_proceeds e .done s
      · split
        · dsimp only
          split
          · exact ((modOp_proceeds s e _).trans (enterStage_proceeds e _ _ _)).trans (ih _)
          · exact (modOp_proceeds s e _).trans (endOp_proceeds e .obstructed _)
        · exact .refl _
    · exact .refl _

theorem advance_proceeds (e : ElemId) (s : State) : Proceeds (s.elem e) ((advance e s).elem e) := by
  unfold advance
  split
  · split
    · exact (enterStage_proceeds e _ _ s).trans (settleStage_proceeds _ e _)
    · exact endOp_proceeds e .done s
  · exact .refl _

/-- A suspension leaves an operation in progress (R41). -/
theorem suspend_inProgress (e : ElemId) (add : OpRec → OpRec) (s : State) :
    ((suspend e add s).elem e).activity.inProgress = (s.elem e).activity.inProgress := by
  unfold suspend
  rw [writeOutputs_elem, modElem_elem, if_pos rfl]
  unfold ElemRun.suspend
  split
  · next active _ => rw [active]; rfl
  · rfl
  · rfl

theorem suspend_proceeds (e : ElemId) (add : OpRec → OpRec) (s : State) :
    Proceeds (s.elem e) ((suspend e add s).elem e) := by
  unfold suspend
  rw [writeOutputs_elem]
  refine modElem_proceeds s e _ ?_
  unfold ElemRun.suspend
  split
  · next active _ => exact .of_running (by simp) (by simp [active]) rfl
  · exact .of_same rfl rfl
  · exact .refl _

theorem interlockTest_proceeds (e : ElemId) (s : State) : Proceeds (s.elem e) ((interlockTest e s).elem e) := by
  unfold interlockTest
  split
  · exact suspend_proceeds e _ s
  · exact .refl _

theorem returnToActive_proceeds (e : ElemId) (s : State) : Proceeds (s.elem e) ((returnToActive e s).elem e) := by
  unfold returnToActive
  split
  · next suspended hop =>
    split
    · refine Proceeds.trans ?_ (settleStage_proceeds _ e _)
      rw [writeOutputs_elem]
      refine modElem_proceeds s e _ ?_
      unfold ElemRun.reactivate
      rw [hop]
      exact .of_running (by simp) (by simp [suspended]) rfl
    · exact .refl _
  · exact .refl _

theorem taskArrive_proceeds (e : ElemId) (u : UnitId) (s : State) :
    Proceeds (s.elem e) ((taskArrive e u s).1.elem e) := by
  unfold taskArrive
  split
  · next pending _ =>
    dsimp only
    have granted : Proceeds (s.elem e) ((advance e (s.modElem e (ElemRun.granted u))).elem e) :=
      (modElem_proceeds s e _ (.of_running (by simp [ElemRun.granted]) (by simp [pending]) rfl)).trans
        (advance_proceeds e _)
    split
    · exact granted.trans (interlockTest_proceeds e _)
    · exact granted
  · split
    · exact (modOp_proceeds s e _).trans (returnToActive_proceeds e _)
    · exact .refl _
  · exact .refl _

/-! ### Moves of one element -/

section
variable {L : ElemId → Prop} {s t : State} {e : ElemId}

/-- An operation that proceeds may end: the element is then leaving. -/
theorem HeldBut.proceed (h : HeldBut L s) (m : AtElem e s t) (p : Proceeds (s.elem e) (t.elem e)) :
    HeldBut (fun d => L d ∨ d = e ∧ (t.elem e).activity = .ended) t := by
  refine h.move m (p.ended (h.ended e)) (fun he => ?_) fun d _ hd => .inl hd
  rcases h.working e he with busy | leaving
  · exact (p.inProgress busy).imp_right fun ended => .inr ⟨rfl, ended⟩
  · exact .inr (.inl leaving)

/-- An operation that stays in progress. -/
theorem HeldBut.proceed_on (h : HeldBut L s) (m : AtElem e s t) (p : Proceeds (s.elem e) (t.elem e))
    (on : (s.elem e).activity.inProgress = true → (t.elem e).activity.inProgress = true) : HeldBut L t :=
  h.move m (p.ended (h.ended e)) (fun he => (h.working e he).imp_left on) fun _ _ hd => hd

/-- An operation of an element that neither holds nor waits. -/
theorem HeldBut.proceed_apart (h : HeldBut L s) (m : AtElem e s t) (p : Proceeds (s.elem e) (t.elem e))
    (apart : e ∉ s.slotUsers) : HeldBut L t :=
  h.move m (p.ended (h.ended e)) (fun he => absurd he apart) fun _ _ hd => hd

end

/-! ### Tasks -/

/-- The elements whose release is among the tasks to come. -/
def releasing (ts : List Task) (e : ElemId) : Prop := .release e ∈ ts

theorem releasing_tail {t : Task} {ts more : List Task} (ht : ∀ d, t ≠ .release d) (e : ElemId)
    (h : releasing (t :: ts) e) : releasing (more ++ ts) e :=
  List.mem_append_right _ ((List.mem_cons.1 h).resolve_left fun he => ht e he.symm)

theorem releaseEnded_releases {e : ElemId} {s : State} (h : (s.elem e).activity = .ended) :
    .release e ∈ releaseEnded e s := by
  unfold releaseEnded
  rw [if_pos h]
  exact List.mem_singleton.2 rfl

/-- Where a grant ends the operation, or is not taken, the release comes with it (R44, R46). -/
theorem taskArrive_releases (e : ElemId) (u : UnitId) (s : State)
    (h : ((taskArrive e u s).1.elem e).activity = .ended) : .release e ∈ (taskArrive e u s).2 := by
  unfold taskArrive at h ⊢
  split at h
  · exact releaseEnded_releases h
  · split at h
    · next path => rw [if_pos path]; exact releaseEnded_releases h
    · next path => rw [if_neg path]; exact List.mem_singleton.2 rfl
  · exact List.mem_singleton.2 rfl

/-- A step of a walk (R90). -/
theorem taskWalk_held {L : ElemId → Prop} {s : State} (u : UnitId) (h : HeldBut L s) : HeldBut L (taskWalk u s).1 := by
  unfold taskWalk
  split
  · split
    · next w found =>
      have hw := List.mem_of_find?_eq_some found
      split
      · exact h.grant u w.holder (h.waiter_fresh hw) (h.powered _ (waiter_mem_users hw))
          (h.working _ (waiter_mem_users hw))
      · exact h
    · exact h
  · exact h

theorem taskStartCheck_usersKept (e : ElemId) (s : State) : UsersKept s (taskStartCheck e s).1 := by
  unfold taskStartCheck
  split
  · split
    · exact .refl s
    · split
      · exact (modUnit_usersKept s _ UnitRun.start fun _ => rfl).trans (drive_usersKept _ _ _)
      · exact .refl s
  · exact .refl s

theorem toReady_holders (r : UnitRun) : r.toReady.holders = r.holders := by
  unfold UnitRun.toReady
  split <;> rfl

theorem settle_holders (n : Nat) (r : UnitRun) : (r.settle n).holders = r.holders := by
  unfold UnitRun.settle
  split <;> rfl

/-- One task, with the releases that it brings about (R86). -/
theorem runTask_held (t : Task) (ts : List Task) (s : State) (h : HeldBut (releasing (t :: ts)) s) :
    HeldBut (releasing ((runTask t s).2 ++ ts)) (runTask t s).1 := by
  cases t with
  | release e =>
    refine h.shrink (taskRelease_sublist e s) (taskRelease_ran e s).cfg (fun d => ?_) fun d hd left => ?_
    · unfold runTask taskRelease
      dsimp only
      split
      · rfl
      · split <;> rfl
    · have gone : d ≠ e := fun hde => taskRelease_gone e s h.nodup (hde ▸ hd)
      exact List.mem_append_right _ ((List.mem_cons.1 left).resolve_left fun he => gone (Task.release.inj he))
  | walk u => exact (taskWalk_held u h).imp (releasing_tail fun _ => nofun)
  | settle u => exact (h.kept (modUnit_usersKept s u _ (settle_holders _))).imp (releasing_tail fun _ => nofun)
  | arrive e u =>
    refine (h.proceed (taskArrive_atElem e u s) (taskArrive_proceeds e u s)).imp fun d hd => ?_
    rcases hd with left | ⟨rfl, ended⟩
    · exact releasing_tail (t := .arrive e u) (fun _ => nofun) d left
    · exact List.mem_append_left _ (taskArrive_releases d u s ended)
  | joinWalk e us => exact (taskJoinWalk_state e us s ▸ h).imp (releasing_tail fun _ => nofun)
  | startCheck e => exact (h.kept (taskStartCheck_usersKept e s)).imp (releasing_tail fun _ => nofun)
  | ready u => exact (h.kept (modUnit_usersKept s u _ toReady_holders)).imp (releasing_tail fun _ => nofun)
  | faultEvent u =>
    exact (h.kept (.of_reported (raise_reported s _ _ _))).imp (releasing_tail fun _ => nofun)

/-- The tasks of one hand-over run to the end, and every release among them is done (log 23). -/
theorem dpm_once {ts : List Task} {s : State} (h : HeldBut (releasing ts) s) (cost : (ts.map Task.cost).sum ≤ 768) :
    SlotsHeldOnce (dpm ts s) := by
  have steps : work ts s ≤ taskBound := by
    have := h.queue_le
    unfold work taskBound
    omega
  exact (heldOnce_iff _).2
    ((dpm_complete (fun ts s => HeldBut (releasing ts) s) runTask_held ts s h steps).imp fun _ => List.not_mem_nil)

end Sys2Proof.Machine.Slots

/-!
What one hand-over to the Drive Power Manager keeps of the slots: a release, a slot request, the batch of STOP-ALL, and the fault of a
unit with its revocations and its queue check (R46, R85, R87, R91, R92).
-/

namespace Sys2Proof.Machine.Slots

/-! ### Releases -/

section
variable {s t : State} {e : ElemId}

/-- An operation proceeds, and where it ends its release follows (R46). -/
theorem dpm_after {ts : List Task} (h : SlotsHeldOnce s) (m : AtElem e s t) (p : Proceeds (s.elem e) (t.elem e))
    (release : (t.elem e).activity = .ended → .release e ∈ ts) (cost : (ts.map Task.cost).sum ≤ 768) :
    SlotsHeldOnce (dpm ts t) := by
  refine dpm_once ((((heldOnce_iff s).1 h).proceed m p).imp fun d hd => ?_) cost
  obtain ⟨rfl, ended⟩ := hd.resolve_left id
  exact release ended

theorem handRelease_once (h : SlotsHeldOnce s) (m : AtElem e s t) (p : Proceeds (s.elem e) (t.elem e)) :
    SlotsHeldOnce (handRelease e t) :=
  dpm_after h m p releaseEnded_releases ((releaseEnded_cost e t).trans (by decide))

theorem endAndRelease_once (h : SlotsHeldOnce s) (code : Completion) : SlotsHeldOnce (endAndRelease e code s) :=
  dpm_after h (endOp_atElem e code s) (endOp_proceeds e code s) (fun _ => List.mem_singleton.2 rfl)
    (by simp [Task.cost])

/-- A suspension ends nothing (R41). -/
theorem suspend_once (h : SlotsHeldOnce s) (add : OpRec → OpRec) : SlotsHeldOnce (suspend e add s) :=
  (heldOnce_iff _).2 (((heldOnce_iff s).1 h).proceed_on (suspend_atElem e add s) (suspend_proceeds e add s)
    fun busy => by rw [suspend_inProgress]; exact busy)

/-- An element that neither holds nor waits may do what it will. -/
theorem once_apart (h : SlotsHeldOnce s) (m : AtElem e s t) (p : Proceeds (s.elem e) (t.elem e))
    (apart : e ∉ s.slotUsers) : SlotsHeldOnce t :=
  (heldOnce_iff t).2 (((heldOnce_iff s).1 h).proceed_apart m p apart)

end

/-! ### Slot requests -/

/-- A powered element at work that neither holds nor waits joins the queue (R89). -/
theorem HeldBut.enqueue {L : ElemId → Prop} {s : State} (h : HeldBut L s) (w : Waiter) (fresh : w.elem ∉ s.slotUsers)
    (powered : ∃ c, s.elemCfg w.elem = some c ∧ isDoor c = false)
    (working : (s.elem w.elem).activity.inProgress = true) : HeldBut L (s.setQueue (s.dpm.queue ++ [w])) := by
  have users : (s.setQueue (s.dpm.queue ++ [w])).slotUsers = s.slotUsers ++ [w.elem] := by
    rw [slotUsers_eq, slotUsers_eq, setQueue_queue, List.map_append, ← List.append_assoc]
    rfl
  have member : ∀ e ∈ (s.setQueue (s.dpm.queue ++ [w])).slotUsers, e ∈ s.slotUsers ∨ e = w.elem := by
    rw [users]
    intro e he
    exact (List.mem_append.1 he).imp_right List.mem_singleton.1
  refine ⟨?_, fun e he => ?_, fun e he => ?_, h.ended⟩
  · rw [users]
    exact List.nodup_append.2 ⟨h.nodup, List.nodup_singleton _, fun a ha b hb hab =>
      fresh (List.mem_singleton.1 hb ▸ hab ▸ ha)⟩
  · rcases member e he with he | rfl
    · exact h.powered e he
    · exact powered
  · rcases member e he with he | rfl
    · exact h.working e he
    · exact .inl working

theorem grantOrder_length (s : State) : s.grantOrder.length ≤ 8 := by
  have four : ∀ f : UnitId → Bool, (units.filter f).length ≤ 4 := fun f => List.length_filter_le f units
  have serving := four fun u => (s.unit u).state = .serving
  have ready := four fun u => (s.unit u).state = .ready
  unfold State.grantOrder
  rw [List.length_append]
  omega

/-- A slot request of a powered element at work that neither holds nor waits (R87). -/
theorem slotRequest_once {s : State} (h : SlotsHeldOnce s) (w : Waiter) (fresh : w.elem ∉ s.slotUsers)
    (powered : ∃ c, s.elemCfg w.elem = some c ∧ isDoor c = false)
    (working : (s.elem w.elem).activity.inProgress = true) : SlotsHeldOnce (slotRequest w s) := by
  have held := (heldOnce_iff s).1 h
  have joined := held.enqueue w fresh powered working
  unfold slotRequest
  dsimp only
  split
  · refine dpm_once (joined.imp fun _ => False.elim) ?_
    have few := (List.length_filter_le (fun u => s.candidate w.path u && (s.unit u).open) s.grantOrder).trans
      (grantOrder_length s)
    simp only [List.map_cons, List.map_nil, List.sum_cons, List.sum_nil, Task.cost]
    omega
  · split
    · next u _ =>
      have granted := held.grant u w.holder (fun hm => fresh (List.mem_append_left _ hm)) powered (.inl working)
      exact dpm_once (granted.imp fun _ => False.elim) (by simp [Task.cost])
    · exact dpm_once (joined.imp fun _ => False.elim) (by simp [Task.cost])

/-! ### The batch of STOP-ALL -/

theorem foldl_modUnit_unit (f : UnitRun → UnitRun) (idem : ∀ r, f (f r) = f r) (l : List UnitId) (s : State)
    (v : UnitId) :
    (l.foldl (fun s u => s.modUnit u f) s).unit v = if v ∈ l then f (s.unit v) else s.unit v := by
  induction l generalizing s with
  | nil => simp
  | cons u l ih =>
    rw [List.foldl_cons, ih, modUnit_unit]
    by_cases hu : v = u <;> by_cases hl : v ∈ l <;> simp [hu, hl, idem]

theorem foldl_modUnit_else (f : UnitRun → UnitRun) (l : List UnitId) (s : State) :
    (l.foldl (fun s u => s.modUnit u f) s).etu = s.etu ∧ (l.foldl (fun s u => s.modUnit u f) s).cfg = s.cfg ∧
      (l.foldl (fun s u => s.modUnit u f) s).dpm.queue = s.dpm.queue := by
  induction l generalizing s with
  | nil => exact ⟨rfl, rfl, rfl⟩
  | cons u l ih => exact ih (s.modUnit u f)

/-- The slots and places of the elements that STOP-ALL ended are given up at once, and the walks follow (R91). -/
theorem batchRelease_once {es : List ElemId} {s : State} (h : HeldBut (· ∈ es) s) :
    SlotsHeldOnce (batchRelease es s) := by
  unfold batchRelease
  dsimp only
  have unit := foldl_modUnit_unit (fun r => { r with holders := r.holders.filter fun h => !es.contains h.elem })
    (fun r => by simp) (units.filter fun u => (s.unit u).holders.any fun h => es.contains h.elem)
    (s.setQueue (s.dpm.queue.filter fun w => !es.contains w.elem))
  obtain ⟨etu, cfg, queue⟩ := foldl_modUnit_else
    (fun r => { r with holders := r.holders.filter fun h => !es.contains h.elem })
    (units.filter fun u => (s.unit u).holders.any fun h => es.contains h.elem)
    (s.setQueue (s.dpm.queue.filter fun w => !es.contains w.elem))
  generalize List.foldl _ _ _ = t at unit etu cfg queue ⊢
  have holders : ∀ v, (t.unit v).holders = (s.unit v).holders.filter fun h => !es.contains h.elem := by
    intro v
    rw [unit]
    split
    · rfl
    · next none =>
      refine (List.filter_eq_self.2 fun h hh => ?_).symm
      simp only [List.mem_filter, List.any_eq_true, not_and, not_exists] at none
      simpa using none (List.mem_finRange v) h hh
  have gone : ∀ e ∈ t.slotUsers, e ∉ es := by
    intro e he
    rcases List.mem_append.1 he with he | he
    · obtain ⟨u, x, hx, rfl⟩ := mem_holding.1 he
      rw [holders] at hx
      simpa using (List.mem_filter.1 hx).2
    · obtain ⟨w, hw, rfl⟩ := List.mem_map.1 he
      rw [queue] at hw
      simpa using (List.mem_filter.1 hw).2
  have users : t.slotUsers.Sublist s.slotUsers :=
    slotUsers_sublist (fun u => by rw [holders]; exact List.filter_sublist) (by rw [queue]; exact List.filter_sublist)
  refine dpm_once (h.shrink users cfg (fun e => by unfold State.elem; rw [etu]; rfl) fun e he hes =>
    absurd hes (gone e he)) ?_
  have cost : ∀ us : List UnitId, ((us.flatMap fun u => [Task.walk u, .settle u]).map Task.cost).sum = 2 * us.length := by
    intro us
    induction us with
    | nil => rfl
    | cons u us ih => simp [Task.cost] at ih ⊢; omega
  rw [cost]
  have few : ∀ f : UnitId → Bool, (units.filter f).length ≤ 4 := fun f => List.length_filter_le f units
  exact (Nat.mul_le_mul_left 2 (few _)).trans (by decide)

/-- STOP-ALL ends the powered operations and gives up what they hold (R49). -/
theorem stopAll_once (es : List ElemId) {s : State} (h : SlotsHeldOnce s) :
    SlotsHeldOnce (batchRelease es (es.foldl (fun s e => endOp e .halted s) s)) := by
  have ending : ∀ (l : List ElemId) (t : State), l ⊆ es → HeldBut (· ∈ es) t →
      HeldBut (· ∈ es) (l.foldl (fun s e => endOp e .halted s) t) := by
    intro l
    induction l with
    | nil => exact fun _ _ held => held
    | cons e l ih =>
      intro t sub held
      refine ih _ (fun d hd => sub (List.mem_cons_of_mem e hd)) ?_
      refine (held.proceed (endOp_atElem e .halted t) (endOp_proceeds e .halted t)).imp fun d hd => ?_
      rcases hd with hd | ⟨rfl, -⟩
      · exact hd
      · exact sub List.mem_cons_self
  exact batchRelease_once (ending es s (List.Subset.refl es) (((heldOnce_iff s).1 h).imp fun _ => False.elim))

/-! ### Faults -/

/-- A revocation leaves every other element, and a multipath holder in progress (R92). -/
theorem revoke_inProgress (u : UnitId) (x : Holder) (s : State) (e : ElemId) (multi : x.elem = e → x.multipath = true)
    (busy : (s.elem e).activity.inProgress = true) : ((revoke u x s).elem e).activity.inProgress = true := by
  by_cases he : e = x.elem
  · unfold revoke
    split
    · split
      · rw [if_pos (multi he.symm), he, suspend_inProgress, ← he]
        exact busy
      · exact busy
    · exact busy
  · rw [(revoke_atElem u x s).others e he]
    exact busy

theorem revoke_proceeds (u : UnitId) (x : Holder) (s : State) :
    Proceeds (s.elem x.elem) ((revoke u x s).elem x.elem) := by
  unfold revoke
  split
  · split
    · split
      · exact suspend_proceeds _ _ s
      · exact endOp_proceeds _ _ s
    · exact .refl _
  · exact .refl _

/-- The revocations of one unit's holders: who is not revoked, or holds by several paths, stays in progress. -/
theorem revokes_keep (u : UnitId) (l : List Holder) (s : State) :
    (∀ e, (∀ x ∈ l, x.elem = e → x.multipath = true) → (s.elem e).activity.inProgress = true →
      ((l.foldl (fun s x => revoke u x s) s).elem e).activity.inProgress = true) ∧
    ((∀ e, EndedFits (s.elem e)) → ∀ e, EndedFits ((l.foldl (fun s x => revoke u x s) s).elem e)) ∧
    (l.foldl (fun s x => revoke u x s) s).dpm = s.dpm ∧ (l.foldl (fun s x => revoke u x s) s).cfg = s.cfg := by
  induction l generalizing s with
  | nil => exact ⟨fun _ _ busy => busy, id, rfl, rfl⟩
  | cons x l ih =>
    obtain ⟨busy, ended, dpm, cfg⟩ := ih (revoke u x s)
    have m := revoke_atElem u x s
    refine ⟨fun e multi was => busy e (fun y hy => multi y (List.mem_cons_of_mem x hy))
        (revoke_inProgress u x s e (multi x List.mem_cons_self) was),
      fun fits => ended fun e => ?_, dpm.trans m.dpm, cfg.trans m.cfg⟩
    by_cases he : e = x.elem
    · subst he
      exact (revoke_proceeds u x s).ended (fits _)
    · rw [m.others e he]
      exact fits e

/-- A waiter that fails leaves the queue with its operation (R92, step 1). -/
theorem failPath_once {s : State} {w : Waiter} (h : SlotsHeldOnce s) (waits : w.elem ∉ holding s) :
    SlotsHeldOnce (failPath s w) := by
  unfold failPath
  split
  · exact h
  · have m := endOp_atElem w.elem .pathFailed s
    have ended := ((heldOnce_iff s).1 h).proceed m (endOp_proceeds w.elem .pathFailed s)
    refine (heldOnce_iff _).2 (ended.shrink (leaveQueue_sublist _ _) rfl (fun _ => rfl) fun e he left => ?_)
    obtain ⟨rfl, -⟩ := left.resolve_left id
    rcases List.mem_append.1 he with hm | hm
    · have same : holding (endOp w.elem .pathFailed s) = holding s := holding_of_same fun u => by rw [m.unit u]
      exact waits (same ▸ hm)
    · exact leaveQueue_gone _ _ hm

/-- Start checks cost four each. -/
theorem sum_costs_startChecks (l : List Waiter) :
    ((l.map fun w => Task.startCheck w.elem).map Task.cost).sum = 4 * l.length := by
  simp [Function.comp_def, Task.cost, Nat.mul_comm]

/-- The queue check after a fault (R92). -/
theorem queueCheck_once {s : State} (h : SlotsHeldOnce s) (u : UnitId) :
    SlotsHeldOnce (queueCheck s [.faultEvent u]) := by
  have failing : ∀ (l : List Waiter) (t : State), SlotsHeldOnce t → (∀ w ∈ l, w.elem ∉ holding t) →
      SlotsHeldOnce (l.foldl failPath t) := by
    intro l
    induction l with
    | nil => exact fun _ once _ => once
    | cons w l ih =>
      intro t once waits
      refine ih _ (failPath_once once (waits w List.mem_cons_self)) fun x hx => ?_
      have same : holding (failPath t w) = holding t := holding_of_same fun u => by rw [failPath_unit t w u]
      rw [same]
      exact waits x (List.mem_cons_of_mem w hx)
  have checked := failing s.dpm.queue s h fun w hw => ((heldOnce_iff s).1 h).waiter_fresh hw
  unfold queueCheck
  dsimp only
  generalize List.foldl failPath s s.dpm.queue = t at checked ⊢
  have held := (heldOnce_iff t).1 checked
  refine dpm_once (held.imp fun _ => False.elim) ?_
  have walks : ((units.map Task.walk).map Task.cost).sum = 4 := by decide
  rw [sum_costs_append, sum_costs_append, sum_costs_startChecks, walks]
  have few := held.queue_le
  simp only [List.map_cons, List.map_nil, List.sum_cons, List.sum_nil, Task.cost]
  omega

/-- A unit's fault: its multipath holders go to the head of the queue, and the others lose what they hold (R85, R92). -/
theorem faultUnit_once {s : State} (h : SlotsHeldOnce s) (u : UnitId) (reason : FaultReason) :
    SlotsHeldOnce (faultUnit u reason s) := by
  unfold faultUnit
  dsimp only
  refine queueCheck_once ((heldOnce_iff _).2 ?_) u
  have held := (heldOnce_iff s).1 h
  obtain ⟨busy, ended, dpm, cfg⟩ :=
    revokes_keep u (s.unit u).holders (driveStart u false (s.modUnit u (UnitRun.fail reason)))
  generalize List.foldl _ _ _ = t at busy ended dpm cfg ⊢
  have elem : ∀ e, (driveStart u false (s.modUnit u (UnitRun.fail reason))).elem e = s.elem e :=
    driveStart_elem u false _
  have unit : ∀ v, t.unit v = if v = u then (s.unit v).fail reason else s.unit v := fun v => by
    unfold State.unit
    rw [dpm, driveStart_dpm]
    exact modUnit_unit s u v _
  have queue : t.dpm.queue = s.dpm.queue := by
    rw [dpm, driveStart_dpm]
    rfl
  have elemCfg : ∀ e, t.elemCfg e = s.elemCfg e := fun e => by
    unfold State.elemCfg
    rw [cfg, driveStart_cfg]
    rfl
  obtain ⟨rest, before, after⟩ := holding_split (s := s) (t := t) (u := u) fun v hv => by rw [unit, if_neg hv]
  have none_left : (t.unit u).holders = [] := by rw [unit, if_pos rfl]; rfl
  rw [none_left] at after
  have was : s.slotUsers.Perm ((s.unit u).holders.map Holder.elem ++ (rest ++ s.dpm.queue.map Waiter.elem)) := by
    rw [← List.append_assoc]
    exact before.append_right _
  have now : (t.setQueue (((s.unit u).holders.filter Holder.multipath).map (Holder.waiter .path) ++
      t.dpm.queue)).slotUsers.Perm
        (((s.unit u).holders.filter Holder.multipath).map Holder.elem ++ (rest ++ s.dpm.queue.map Waiter.elem)) := by
    rw [slotUsers_eq, setQueue_queue, List.map_append, List.map_map, queue]
    refine (after.append_right _).trans ?_
    simp only [List.map_nil, List.nil_append]
    exact List.perm_append_comm_assoc _ _ _
  have sub := (List.filter_sublist (l := (s.unit u).holders) (p := Holder.multipath)).map Holder.elem
  have nodup := was.nodup_iff.1 held.nodup
  have still : ∀ e ∈ ((s.unit u).holders.filter Holder.multipath).map Holder.elem ++
      (rest ++ s.dpm.queue.map Waiter.elem), e ∈ s.slotUsers := fun e he =>
    was.mem_iff.2 ((sub.append_right _).subset he)
  refine ⟨now.nodup_iff.2 (nodup.sublist (sub.append_right _)), fun e he => ?_, fun e he => .inl ?_,
    ended fun e => by rw [elem]; exact held.ended e⟩
  · obtain ⟨c, hc, powered⟩ := held.powered e (still e (now.mem_iff.1 he))
    exact ⟨c, (elemCfg e).trans hc, powered⟩
  · have member := now.mem_iff.1 he
    refine busy e (fun x hx hxe => ?_) (by rw [elem]; exact (held.working e (still e member)).resolve_right id)
    rcases List.mem_append.1 member with multi | other
    · obtain ⟨y, hy, hye⟩ := List.mem_map.1 multi
      obtain ⟨hy, multi⟩ := List.mem_filter.1 hy
      exact List.inj_on_of_nodup_map nodup.of_append_left hx hy (hxe.trans hye.symm) ▸ multi
    · exact absurd other (List.disjoint_of_nodup_append nodup (List.mem_map.2 ⟨x, hx, hxe⟩))

/-! ### A notification at the Drive Power Manager -/

theorem notifyUnit_once (n : NodeId) (was : Option Word16) (lost : Bool) {s : State} (h : SlotsHeldOnce s)
    (u : UnitId) : SlotsHeldOnce (notifyUnit n was lost s u) := by
  unfold notifyUnit
  dsimp only
  split
  · exact faultUnit_once h u _
  · split
    · exact dpm_once (((heldOnce_iff s).1 h).imp fun _ => False.elim) (by simp [Task.cost])
    · exact h

theorem foldl_once {α : Type} (f : State → α → State) (hf : ∀ s a, SlotsHeldOnce s → SlotsHeldOnce (f s a)) (l : List α)
    (s : State) (h : SlotsHeldOnce s) : SlotsHeldOnce (l.foldl f s) := by
  induction l generalizing s with
  | nil => exact h
  | cons a l ih => exact ih _ (hf s a h)

theorem dpmNotify_once (n : NodeId) (was : Option Word16) (lost : Bool) {s : State} (h : SlotsHeldOnce s) :
    SlotsHeldOnce (dpmNotify n was lost s) := foldl_once _ (fun _ u once => notifyUnit_once n was lost once u) _ s h

/-- The start checks after a PU-CLEAR (R93). -/
theorem startChecks_once {s : State} (h : SlotsHeldOnce s) : SlotsHeldOnce (startChecks s) := by
  unfold startChecks
  split
  · have held := (heldOnce_iff s).1 h
    refine dpm_once (held.imp fun _ => False.elim) ?_
    have few := held.queue_le
    rw [sum_costs_startChecks]
    omega
  · exact h

end Sys2Proof.Machine.Slots

/-!
What the work of one event keeps of the slots: a notification's turns, requests and timers of operations, and fire zones at the doors
(R7, R25, R46, R110, R117).
-/

namespace Sys2Proof.Machine.Slots

/-! ### Changes that slots do not depend on -/

theorem modElem_usersKept (s : State) (e : ElemId) (f : ElemRun → ElemRun)
    (hf : (f (s.elem e)).activity = (s.elem e).activity ∧ (f (s.elem e)).pend.ended = (s.elem e).pend.ended) :
    UsersKept s (s.modElem e f) := by
  refine ⟨slotUsers_of_same (fun _ => rfl) rfl, rfl, fun d => ?_, fun d => ?_⟩ <;> rw [modElem_elem] <;> split
  · next hd => subst hd; exact hf.1
  · rfl
  · next hd => subst hd; exact hf.2
  · rfl

theorem modOp_usersKept (s : State) (e : ElemId) (f : OpRec → OpRec) : UsersKept s (s.modOp e f) :=
  modElem_usersKept s e _ ⟨rfl, rfl⟩

theorem setOwed_usersKept (e : ElemId) (b : Bool) (s : State) : UsersKept s (setOwed e b s) :=
  modElem_usersKept s e _ ⟨rfl, rfl⟩

theorem doorUnavailable_usersKept (e : ElemId) (c : ElementCfg) (s : State) : UsersKept s (doorUnavailable e c s) := by
  unfold doorUnavailable
  split <;> exact .of_reported (raise_reported s _ _ _)

/-- A closure begins on a door at rest alone (R109). -/
theorem closureTest_once (e : ElemId) (c : ElementCfg) {s : State} (h : SlotsHeldOnce s) :
    SlotsHeldOnce (closureTest e c s) := by
  refine (heldOnce_iff _).2 (((heldOnce_iff s).1 h).proceed_on (closureTest_atElem e c s) (closureTest_proceeds e c s)
    fun busy => ?_)
  obtain ⟨notIdle, notEnded⟩ := (inProgress_iff _).1 busy
  have waits : (s.elem e).canClose = false := by simp [ElemRun.canClose, notIdle, notEnded]
  unfold closureTest
  rw [waits, Bool.and_false, if_neg Bool.false_ne_true]
  exact busy

/-! ### A notification at the Element Table Unit -/

theorem decodeAll_usersKept (n : NodeId) (was : Option Word16) (s : State) : UsersKept s (decodeAll n was s) := by
  have same : ∀ e, ((decodeAll n was s).elem e).activity = (s.elem e).activity ∧
      ((decodeAll n was s).elem e).pend.ended = (s.elem e).pend.ended := by
    intro e
    rw [decodeAll_elem]
    split
    · split <;> exact ⟨rfl, rfl⟩
    · exact ⟨rfl, rfl⟩
  refine ⟨slotUsers_of_same (fun u => ?_) ?_, ?_, fun e => (same e).1, fun e => (same e).2⟩
  · simp only [State.unit, decodeAll]
  · unfold decodeAll; rfl
  · unfold decodeAll; rfl

theorem turnAlert_usersKept (ch : Change) (s : State) : UsersKept s (turnAlert ch s) := by
  unfold turnAlert
  dsimp only
  split
  · refine modElem_usersKept s ch.elem _ ?_
    unfold ElemRun.alert
    split <;> exact ⟨rfl, rfl⟩
  · exact .refl s

theorem leavesClosed_once (ch : Change) {s : State} (h : SlotsHeldOnce s) : SlotsHeldOnce (leavesClosed ch s) := by
  unfold leavesClosed
  dsimp only
  split
  · have owed := (setOwed_usersKept ch.elem true s).once h
    split
    · exact closureTest_once _ _ owed
    · split
      · exact (doorUnavailable_usersKept _ _ _).once owed
      · exact owed
  · exact h

theorem turnClosure_once (ch : Change) {s : State} (h : SlotsHeldOnce s) : SlotsHeldOnce (turnClosure ch s) := by
  unfold turnClosure
  split
  · split
    · exact (setOwed_usersKept _ _ s).once h
    · split
      · exact leavesClosed_once ch h
      · split
        · exact closureTest_once _ _ h
        · exact h
  · exact h

theorem turnOperation_once (ch : Change) {s : State} (h : SlotsHeldOnce s) : SlotsHeldOnce (turnOperation ch s) := by
  unfold turnOperation
  dsimp only
  have settled := handRelease_once h (settleStage_atElem stageChain ch.elem s) (settleStage_proceeds stageChain ch.elem s)
  split
  · exact h
  · split
    · split
      · exact endAndRelease_once h _
      · split
        · exact endAndRelease_once h _
        · split
          · split
            · exact endAndRelease_once h _
            · split
              · exact settled
              · split
                · exact settled
                · exact h
          · exact h
    · exact h

theorem dependentTest_once (pre : ElemId) {s : State} (d : ElemId) (h : SlotsHeldOnce s) :
    SlotsHeldOnce (dependentTest pre s d) := by
  unfold dependentTest
  split
  · split
    · exact endAndRelease_once h _
    · exact suspend_once h _
  · exact h

theorem turnDependents_once (ch : Change) {s : State} (h : SlotsHeldOnce s) : SlotsHeldOnce (turnDependents ch s) := by
  unfold turnDependents
  split
  · exact foldl_once _ (fun _ d once => dependentTest_once ch.elem d once) _ s h
  · exact h

/-- One element's turn (R7). -/
theorem turn_once (s : State) (ch : Change) (h : SlotsHeldOnce s) : SlotsHeldOnce (turn s ch) :=
  (UsersKept.of_called (turnNotice_called ch _)).once <| turnDependents_once ch <| turnOperation_once ch <|
    turnClosure_once ch <| (turnAlert_usersKept ch s).once h

theorem etuNotify_once (n : NodeId) (was : Option Word16) {s : State} (h : SlotsHeldOnce s) :
    SlotsHeldOnce (etuNotify n was s) :=
  foldl_once turn turn_once _ _ ((decodeAll_usersKept n was s).once h)

/-! ### Timers of operations, RESUME, CONSENT, CLEAR and collections -/

theorem stageTimer_once (e : ElemId) {s : State} (h : SlotsHeldOnce s) : SlotsHeldOnce (stageTimer e s) := by
  unfold stageTimer
  split
  · split
    · split
      · exact handRelease_once h (advance_atElem e s) (advance_proceeds e s)
      · exact h
    · exact h
  · exact h

theorem stageLimitReached_once (e : ElemId) {s : State} (h : SlotsHeldOnce s) : SlotsHeldOnce (stageLimitReached e s) := by
  unfold stageLimitReached
  split
  · split
    · split
      · exact endAndRelease_once h _
      · exact h
    · exact h
  · exact h

theorem windowExpires_once (e : ElemId) {s : State} (h : SlotsHeldOnce s) : SlotsHeldOnce (windowExpires e s) := by
  unfold windowExpires
  split
  · split
    · exact suspend_once h _
    · exact h
  · exact h

theorem suspensionExpires_once (e : ElemId) {s : State} (h : SlotsHeldOnce s) : SlotsHeldOnce (suspensionExpires e s) := by
  unfold suspensionExpires
  split
  · split
    · exact endAndRelease_once h _
    · exact h
  · exact h

/-- A reason leaves an operation, which may return to ACTIVE and end (R40, R42, R45). -/
theorem freed_once (e : ElemId) (f : OpRec → OpRec) {s : State} (h : SlotsHeldOnce s) :
    SlotsHeldOnce (handRelease e (returnToActive e (s.modOp e f))) :=
  handRelease_once h ((modOp_atElem e s f).trans (returnToActive_atElem e _))
    ((modOp_proceeds s e f).trans (returnToActive_proceeds e _))

theorem resumeOn_once (e : ElemId) {s : State} (h : SlotsHeldOnce s) : SlotsHeldOnce (resumeOn e s).1 := by
  unfold resumeOn
  split
  · split
    · split
      · exact h
      · exact freed_once e _ h
    · exact h
  · exact h

theorem consentOne_once (p : Port) (b : Byte) {s : State} (h : SlotsHeldOnce s) : SlotsHeldOnce (consentOne p b s).1 := by
  unfold consentOne
  split
  · exact h
  · split
    · split
      · exact (modOp_usersKept s _ _).once h
      · exact h
    · split
      · split
        · exact freed_once _ _ h
        · exact (modOp_usersKept s _ _).once h
      · exact h
    · exact h

theorem consentAll_once (p : Port) (bs : List Byte) {s : State} (h : SlotsHeldOnce s) :
    SlotsHeldOnce (consentAll p bs s).1 := by
  induction bs generalizing s with
  | nil => exact h
  | cons b bs ih => exact ih (consentOne_once p b h)

/-- A CLEAR gives up the slot with the record (R48). -/
theorem applyClear_once (e : ElemId) (c : ElementCfg) {s : State} (h : SlotsHeldOnce s) :
    SlotsHeldOnce (applyClear e c s) := by
  unfold applyClear
  dsimp only
  have m : AtElem e s (writeOutputs e (s.modElem e ElemRun.clear)) :=
    (modElem_atElem e s _ (clear_kept _).1 fun _ => (clear_kept _).2).trans (writeOutputs_atElem e _)
  have record : (writeOutputs e (s.modElem e ElemRun.clear)).elem e = (s.elem e).clear := by
    rw [writeOutputs_elem, modElem_elem, if_pos rfl]
  have cleared : HeldBut (releasing [.release e]) (writeOutputs e (s.modElem e ElemRun.clear)) :=
    ((heldOnce_iff s).1 h).move m (by rw [record]; simp [EndedFits, ElemRun.clear, ElemRun.unreport])
      (fun _ => .inr (List.mem_singleton.2 rfl)) fun _ _ => False.elim
  refine closureTest_once e c ?_
  have released := dpm_once cleared (by simp [Task.cost])
  split
  · exact (setOwed_usersKept e false _).once released
  · exact released

/-- A collection that takes ENDED away finds the operation ended, and the slot given up (R156). -/
theorem collect_once (e : ElemId) {s : State} (h : SlotsHeldOnce s) : SlotsHeldOnce (s.modElem e ElemRun.collect) := by
  have held := (heldOnce_iff s).1 h
  have m : AtElem e s (s.modElem e ElemRun.collect) := by
    refine modElem_atElem e s _ ?_ ?_ <;> unfold ElemRun.collect <;> split
    · exact rfl
    · exact rfl
    · simp [ElemRun.opFits]
    · exact id
  have record : (s.modElem e ElemRun.collect).elem e = (s.elem e).collect := by rw [modElem_elem, if_pos rfl]
  refine (heldOnce_iff _).2 (held.move m ?_ (fun he => .inl ?_) fun _ _ => False.elim) <;> rw [record] <;>
    unfold ElemRun.collect <;> split
  · simp [EndedFits, ElemRun.unreport]
  · simp [EndedFits, ElemRun.unreport]
  · next pending => exact absurd he (held.not_mem (by rw [held.ended e pending]; rfl) id)
  · exact (held.working e he).resolve_right id

theorem collectOn_once (e : ElemId) (c : ElementCfg) {s : State} (h : SlotsHeldOnce s) :
    SlotsHeldOnce (collectOn e c s).1 := by
  unfold collectOn
  dsimp only
  split
  · exact collect_once e h
  · exact (modElem_usersKept s e ElemRun.collectLate ⟨rfl, rfl⟩).once h

/-! ### START -/

theorem beginOp_proceeds (e : ElemId) (replaced : Bool) (a : Activity) (ha : a ≠ .idle) (o : OpRec) (s : State)
    (was : replaced = false → (s.elem e).activity ≠ .ended) :
    Proceeds (s.elem e) ((beginOp e replaced a o s).elem e) := by
  refine modElem_proceeds s e _ ?_
  cases replaced
  · exact .of_running ha (was rfl) rfl
  · exact ⟨fun _ => ha, fun _ => by simp [EndedFits, ElemRun.makeRoom, ElemRun.dropEnded]⟩

/-- An accepted START: its element holds nothing yet, being a door or at rest (R25, R26). -/
theorem applyStart_once (p : Port) (e : ElemId) (c : ElementCfg) (k : OpKind) (f : StartFields) {s : State}
    (h : SlotsHeldOnce s) (hc : s.elemCfg e = some c)
    (free : isDoor c = false → (s.elem e).activity.inProgress = false) (notEnded : (s.elem e).activity ≠ .ended) :
    SlotsHeldOnce (applyStart p e c k f s).1 := by
  have apart : e ∉ s.slotUsers := by
    cases door : isDoor c
    · exact ((heldOnce_iff s).1 h).not_mem (free door) id
    · exact ((heldOnce_iff s).1 h).door_not_mem hc door
  unfold applyStart
  dsimp only
  generalize s.overtakes p e k = replaced
  generalize OpRec.started p k f (s.startMark c k) = o
  obtain ⟨m, proceeds, was⟩ : AtElem e s (if replaced = true then endRecord e .overtaken s else s) ∧
      Proceeds (s.elem e) ((if replaced = true then endRecord e .overtaken s else s).elem e) ∧
      (replaced = false → ((if replaced = true then endRecord e .overtaken s else s).elem e).activity ≠ .ended) := by
    cases replaced
    · exact ⟨.refl e s, .refl _, fun _ => notEnded⟩
    · exact ⟨endRecord_atElem e _ s, endRecord_proceeds e _ s, nofun⟩
  generalize (if replaced = true then endRecord e .overtaken s else s) = v at m proceeds was ⊢
  have begins (a : Activity) (ha : a ≠ .idle) (o : OpRec) : AtElem e s (beginOp e replaced a o v) ∧
      Proceeds (s.elem e) ((beginOp e replaced a o v).elem e) :=
    ⟨m.trans (beginOp_atElem e replaced a ha o v), proceeds.trans (beginOp_proceeds e replaced a ha o v was)⟩
  split
  · obtain ⟨mb, pb⟩ := begins .active (by decide) o
    exact once_apart h (mb.trans (endOp_atElem e .done _)) (pb.trans (endOp_proceeds e .done _)) apart
  · split
    · next powered =>
      obtain ⟨mb, pb⟩ := begins .startPending (by decide) { o with stage := .prep }
      have users : (beginOp e replaced .startPending { o with stage := .prep } v).slotUsers = s.slotUsers :=
        slotUsers_of_same (fun u => by rw [mb.unit u]) (by rw [mb.dpm])
      refine slotRequest_once (once_apart h mb pb apart) _ (by rw [users]; exact apart)
        ⟨c, (mb.elemCfg e).trans hc, by simpa using powered⟩ ?_
      unfold beginOp State.startWaiter
      rw [modElem_elem, if_pos rfl]
      rfl
    · obtain ⟨mb, pb⟩ := begins .active (by decide) o
      exact once_apart h ((mb.trans (enterStage_atElem e c _ _)).trans (settleStage_atElem _ e _))
        ((pb.trans (enterStage_proceeds e c _ _)).trans (settleStage_proceeds _ e _)) apart

/-! ### Fire zones at the doors -/

theorem oweUnlessClosed_proceeds (e : ElemId) (s : State) : Proceeds (s.elem e) ((oweUnlessClosed e s).elem e) := by
  unfold oweUnlessClosed
  split
  · exact .refl _
  · exact setOwed_proceeds e true s

theorem alarmDoor_proceeds (e : ElemId) (c : ElementCfg) (s : State) :
    Proceeds (s.elem e) ((alarmDoor e c s).elem e) := by
  unfold alarmDoor
  dsimp only
  split
  · split
    · exact .refl _
    · refine (setOwed_proceeds e true s).trans ?_
      split
      · unfold doorUnavailable
        split <;> exact raise_proceeds e _ _ _ _
      · exact .refl _
  · split
    · refine (oweUnlessClosed_proceeds e s).trans ?_
      split
      · exact endOp_proceeds e _ _
      · split
        · exact .refl _
        · exact (modOp_proceeds _ e _).trans (returnToActive_proceeds e _)
      · exact .refl _
    · exact (oweUnlessClosed_proceeds e s).trans (closureTest_proceeds e c _)

theorem normalDoor_proceeds (e : ElemId) (c : ElementCfg) (s : State) :
    Proceeds (s.elem e) ((normalDoor e c s).elem e) := by
  unfold normalDoor
  split
  · exact .refl _
  · dsimp only
    refine (setOwed_proceeds e false s).trans ?_
    split
    · exact (modOp_proceeds _ e _).trans (interlockTest_proceeds e _)
    · exact .refl _

theorem mem_doorsOf {s : State} {z : ZoneId} {d : ElemId × ElementCfg} (h : d ∈ s.doorsOf z) :
    s.elemCfg d.1 = some d.2 ∧ isDoor d.2 = true := by
  obtain ⟨e, -, he⟩ := List.mem_filterMap.1 h
  obtain ⟨c, hc, hd⟩ := Option.bind_eq_some_iff.1 he
  split at hd
  · next bounds =>
    cases hd
    exact ⟨hc, (Bool.and_eq_true _ _ ▸ bounds).1⟩
  · cases hd

/-- What moves doors alone moves no element that holds or waits. -/
theorem doors_once {f : ElemId → ElementCfg → State → State} (m : ∀ e c s, AtElem e s (f e c s))
    (p : ∀ e c s, Proceeds (s.elem e) ((f e c s).elem e)) {s : State} (l : List (ElemId × ElementCfg))
    (doors : ∀ d ∈ l, s.elemCfg d.1 = some d.2 ∧ isDoor d.2 = true) (h : SlotsHeldOnce s) :
    SlotsHeldOnce (l.foldl (fun s d => f d.1 d.2 s) s) := by
  induction l generalizing s with
  | nil => exact h
  | cons d l ih =>
    obtain ⟨hc, door⟩ := doors d List.mem_cons_self
    refine ih (fun x hx => ?_) (once_apart h (m _ _ s) (p _ _ s) (((heldOnce_iff s).1 h).door_not_mem hc door))
    obtain ⟨hxc, hxd⟩ := doors x (List.mem_cons_of_mem d hx)
    exact ⟨((m d.1 d.2 s).elemCfg x.1).trans hxc, hxd⟩

theorem etuAlarm_once (z : ZoneId) {s : State} (h : SlotsHeldOnce (s.setAlarmed (s.etu.alarmed ||| zoneBit z))) :
    SlotsHeldOnce (etuAlarm z s) :=
  doors_once alarmDoor_atElem alarmDoor_proceeds (s.doorsOf z) (fun _ hd => mem_doorsOf (s := s) hd) h

theorem etuNormal_once (z : ZoneId) {s : State} (h : SlotsHeldOnce (s.setAlarmed (s.etu.alarmed &&& ~~~zoneBit z))) :
    SlotsHeldOnce (etuNormal z s) :=
  doors_once normalDoor_atElem normalDoor_proceeds (s.doorsOf z) (fun _ hd => mem_doorsOf (s := s) hd) h

end Sys2Proof.Machine.Slots

/-!
The work of one event keeps every bound: transmit FIFOs, event queue, call queue and preemption stack within their capacities (R121,
R162, R172), and slots within the units' and held once (R89, R91). Operations and owners of requests one by one.
-/

namespace Sys2Proof.Machine.Slots

/-! ### Work within one event -/

/-- Work of one event that keeps every bound; transmit FIFOs only grow, by attentions. -/
structure WithinBounds (s t : State) : Prop where
  grew   : ∀ p, PortGrew (s.port p) (t.port p)
  events : s.rpu.events.length ≤ eventCapacity → t.rpu.events.length ≤ eventCapacity
  queue  : s.csc.queue.length ≤ callCapacity → t.csc.queue.length ≤ callCapacity
  stack  : s.csc.stack.length ≤ stackCapacity → t.csc.stack.length ≤ stackCapacity
  slots  : SlotsInCapacity s → SlotsInCapacity t
  once   : SlotsHeldOnce s → SlotsHeldOnce t

theorem WithinBounds.refl (s : State) : WithinBounds s s := ⟨fun _ => .refl _, id, id, id, id, id⟩

theorem WithinBounds.trans {a b c : State} (h : WithinBounds a b) (k : WithinBounds b c) : WithinBounds a c :=
  ⟨fun p => (h.grew p).trans (k.grew p), fun x => k.events (h.events x), fun x => k.queue (h.queue x),
    fun x => k.stack (h.stack x), fun x => k.slots (h.slots x), fun x => k.once (h.once x)⟩

section
variable {s t : State}

theorem WithinBounds.of_worked (w : Worked s t) (once : SlotsHeldOnce s → SlotsHeldOnce t) : WithinBounds s t :=
  ⟨w.grew, w.events, w.kept.queue, w.kept.stack, w.slots, once⟩

theorem WithinBounds.of_called (c : Called s t) : WithinBounds s t := .of_worked c.toWorked (UsersKept.of_called c).once

theorem WithinBounds.of_reported (r : Reported s t) : WithinBounds s t := .of_called r.toCalled

/-- A change outside the ports, the event queue, the Call Scheduler and the units. -/
theorem WithinBounds.of_same (ports : t.ports = s.ports) (events : t.rpu.events = s.rpu.events) (csc : t.csc = s.csc)
    (units : t.dpm.units = s.dpm.units) (users : UsersKept s t) : WithinBounds s t := by
  refine ⟨fun p => ?_, by rw [events]; exact id, by rw [csc]; exact id, by rw [csc]; exact id,
    slots_of_units fun u => ?_, users.once⟩
  · unfold State.port
    rw [ports]
    exact .refl _
  · unfold State.unit
    rw [units]

end

theorem raise_within (s : State) (k : EventKind) (source : Byte) (detail : Word16) :
    WithinBounds s (s.raise k source detail) := .of_reported (raise_reported s k source detail)

/-- A change of the Call Scheduler's record that keeps its queue and its stack within their capacities. -/
theorem modCsc_within (s : State) (f : Csc → Csc)
    (queue : s.csc.queue.length ≤ callCapacity → (f s.csc).queue.length ≤ callCapacity)
    (stack : s.csc.stack.length ≤ stackCapacity → (f s.csc).stack.length ≤ stackCapacity) :
    WithinBounds s (s.modCsc f) :=
  ⟨fun _ => .refl _, id, queue, stack, id, (UsersKept.of_same (s := s) (t := s.modCsc f) rfl rfl fun _ => rfl).once⟩

theorem modElem_within (s : State) (e : ElemId) (f : ElemRun → ElemRun)
    (hf : (f (s.elem e)).activity = (s.elem e).activity ∧ (f (s.elem e)).pend.ended = (s.elem e).pend.ended) :
    WithinBounds s (s.modElem e f) := .of_same rfl rfl rfl rfl (modElem_usersKept s e f hf)

theorem mapElems_within (s : State) (f : ElemRun → ElemRun)
    (hf : ∀ r, (f r).activity = r.activity ∧ (f r).pend.ended = r.pend.ended) : WithinBounds s (s.mapElems f) := by
  refine .of_same (by simp) (by simp) (by simp) (by simp)
    ⟨slotUsers_of_same (fun _ => by simp) (by simp), by simp, fun e => ?_, fun e => ?_⟩ <;>
    rw [mapElems_elem]
  · exact (hf _).1
  · exact (hf _).2

theorem modAuth_within (s : State) (p : Port) (f : AuthRec → AuthRec) : WithinBounds s (s.modAuth p f) :=
  .of_same rfl rfl rfl rfl (.of_same rfl rfl fun _ => rfl)

theorem modZone_within (s : State) (z : ZoneId) (f : ZoneRun → ZoneRun) : WithinBounds s (s.modZone z f) :=
  .of_same rfl rfl rfl rfl (.of_same rfl rfl fun _ => rfl)

theorem modNode_within (s : State) (n : NodeId) (f : NodeRun → NodeRun) : WithinBounds s (s.modNode n f) :=
  .of_same rfl rfl rfl rfl (.of_same rfl rfl fun _ => rfl)

theorem setHold_within (e : ElemId) (h : Hold) (s : State) : WithinBounds s (setHold e h s) := by
  obtain ⟨-, cfg, ports, -, -, dpm, -, csc, rpu, -, -⟩ := setHold_else e h s
  refine .of_same ports (by rw [rpu]) csc (by rw [dpm])
    ⟨slotUsers_of_same (fun u => by unfold State.unit; rw [dpm]) (by rw [dpm]), by rw [cfg], fun d => ?_, fun d => ?_⟩ <;>
    rw [setHold_elem] <;> split <;> rfl

theorem finishReports_within (s0 s : State) : WithinBounds s (finishReports s0 s) :=
  (WithinBounds.of_same (s := s) (t := relisted s0 s) rfl rfl rfl rfl (.of_same rfl rfl fun _ => rfl)).trans
    (.of_reported (finishReports_reported s0 s))

/-! ### Elements and units -/

theorem endAndRelease_within (e : ElemId) (code : Completion) (s : State) : WithinBounds s (endAndRelease e code s) :=
  .of_worked (endAndRelease_worked e code s) fun h => endAndRelease_once h code

theorem closureTest_within (e : ElemId) (c : ElementCfg) (s : State) : WithinBounds s (closureTest e c s) :=
  .of_worked (closureTest_atElem e c s).toWorked (closureTest_once e c)

/-- A faulted unit with its holders' revocations (R85). -/
theorem faultUnit_within (u : UnitId) (reason : FaultReason) (s : State) : WithinBounds s (faultUnit u reason s) :=
  .of_worked (faultUnit_worked u reason s) fun h => faultUnit_once h u reason

/-- A unit without holders may take any state. -/
theorem modUnit_within (s : State) (u : UnitId) (f : UnitRun → UnitRun) (holders : ∀ r, (f r).holders = r.holders)
    (empty : (s.unit u).slotsOk → (s.unit u).holders = []) : WithinBounds s (s.modUnit u f) := by
  refine ⟨fun _ => .refl _, id, id, id, fun h v => ?_, (modUnit_usersKept s u f holders).once⟩
  rw [modUnit_unit]
  split
  · next hv =>
    subst hv
    refine ⟨?_, fun some => absurd (empty (h v)) (holders _ ▸ some)⟩
    unfold UnitRun.used
    rw [holders]
    exact (h v).1
  · exact h v

/-- A unit that is not SERVING has no holder (R91). -/
theorem no_holders {r : UnitRun} (idle : r.state ≠ .serving) (h : r.slotsOk) : r.holders = [] := by
  by_contra some
  exact idle (h.2 some)

theorem notify_within (order : BlockOrder) (n : NodeId) (was : Option Word16) (lost : Bool) (s : State) :
    WithinBounds s (notify order n was lost s) := by
  have etu (v : State) : WithinBounds v (finishReports v (etuNotify n was v)) :=
    (WithinBounds.of_worked (etuNotify_worked n was v) (etuNotify_once n was)).trans (finishReports_within v _)
  have dpm (v : State) : WithinBounds v (finishReports v (dpmNotify n was lost v)) :=
    (WithinBounds.of_worked (dpmNotify_worked n was lost v) (dpmNotify_once n was lost)).trans (finishReports_within v _)
  unfold notify
  cases order
  · exact (etu s).trans (dpm _)
  · exact (dpm s).trans (etu _)

/-! ### The owners of requests -/

/-- An owner whose work keeps every bound. -/
def OwnerWithin (owner : Owner) : Prop := ∀ s, WithinBounds s (owner s).1

/-! In each proof below, every check that fails refuses in the state as it is; what is left is the owner's work. -/

theorem ownPoll_within (f : Option Unit) : OwnerWithin (ownPoll f) := by
  intro s
  cases f <;> exact .refl s

theorem ownPartView_within (f : Option Unit) : OwnerWithin (ownPartView f) := by
  intro s
  cases f <;> exact .refl s

theorem ownSoftReset_within (p : Port) (f : Option Unit) : OwnerWithin (ownSoftReset p f) := by
  intro s
  unfold ownSoftReset
  iterate 3 (split; · exact .refl s)
  exact .refl s

theorem ownView_within (f : Option Byte) : OwnerWithin (ownView f) := by
  intro s
  unfold ownView
  iterate 3 (split; · exact .refl s)
  exact .refl s

theorem ownPuView_within (f : Option Byte) : OwnerWithin (ownPuView f) := by
  intro s
  unfold ownPuView
  iterate 2 (split; · exact .refl s)
  exact .refl s

theorem ownZoneView_within (f : Option Byte) : OwnerWithin (ownZoneView f) := by
  intro s
  unfold ownZoneView
  iterate 4 (split; · exact .refl s)
  exact .refl s

theorem ownCallList_within (f : Option Byte) : OwnerWithin (ownCallList f) := by
  intro s
  unfold ownCallList
  iterate 2 (split; · exact .refl s)
  exact .refl s

theorem applyModify_within (e : ElemId) (c : ElementCfg) (f : ModifyFields) (s : State) :
    WithinBounds s (applyModify e c f s) := by
  unfold applyModify
  dsimp only
  have settings := modElem_within s e (ElemRun.settings f) ⟨rfl, rfl⟩
  generalize s.modElem e (ElemRun.settings f) = v at settings ⊢
  refine settings.trans ?_
  split
  · unfold disable
    dsimp only
    refine (setHold_within e .none v).trans ?_
    split
    · exact .of_worked (doorUnavailable_atElem e c _).toWorked (doorUnavailable_usersKept e c _).once
    · exact .refl _
  · split
    · exact closureTest_within e c v
    · exact .refl v

theorem ownModify_within (p : Port) (f : Option ModifyFields) : OwnerWithin (ownModify p f) := by
  intro s
  unfold ownModify
  iterate 7 (split; · exact .refl s)
  exact applyModify_within _ _ _ s

theorem elemCfg_of_elem? {s : State} {b : Byte} {e : ElemId} {c : ElementCfg} (h : s.elem? b = some (e, c)) :
    s.elemCfg e = some c := by
  obtain ⟨d, -, hd⟩ := Option.bind_eq_some_iff.1 h
  obtain ⟨x, hx, he⟩ := Option.map_eq_some_iff.1 hd
  cases he
  exact hx

/-- An EGRESS alone overtakes (R26). -/
theorem overtakes_egress {s : State} {p : Port} {e : ElemId} {k : OpKind} (h : s.overtakes p e k = true) :
    k = .egress := by
  simp only [State.overtakes, Bool.and_eq_true, decide_eq_true_eq] at h
  exact h.1.1.1

/-- A START that no check has refused finds a powered element at rest (R23, checks 3, 6 and 7). -/
theorem startOn_within {p : Port} {e : ElemId} {c : ElementCfg} {k : OpKind} {f : StartFields} {s : State}
    (hc : s.elemCfg e = some c) (form : startInForm c k f = true) : WithinBounds s (startOn p e c k f s).1 := by
  unfold startOn
  dsimp only
  split
  · exact .refl s
  · next notBusy =>
    split
    · exact .refl s
    · next notEnded =>
      iterate 4 (split; · exact .refl s)
      refine .of_worked (applyStart_worked p e c k f s) fun h =>
        applyStart_once p e c k f h hc (fun powered => ?_) notEnded
      by_contra busy
      rw [Bool.not_eq_false] at busy
      refine notBusy ⟨busy, ?_⟩
      by_contra overtaken
      have egress := overtakes_egress (Bool.of_not_eq_false fun no => overtaken (by rw [no]; rfl))
      simp [startInForm, powered, egress] at form

theorem ownStart_within (p : Port) (f : Option StartFields) : OwnerWithin (ownStart p f) := by
  intro s
  unfold ownStart
  split
  · exact .refl s
  · split
    · exact .refl s
    · split
      · exact .refl s
      · next named =>
        split
        · exact .refl s
        · split
          · exact .refl s
          · next form =>
            iterate 2 (split; · exact .refl s)
            exact startOn_within (elemCfg_of_elem? named) (by simpa using form)

theorem ownHalt_within (p : Port) (f : Option Byte) : OwnerWithin (ownHalt p f) := by
  intro s
  unfold ownHalt
  iterate 7 (split; · exact .refl s)
  exact endAndRelease_within _ _ s

theorem ownResume_within (p : Port) (f : Option Byte) : OwnerWithin (ownResume p f) := by
  intro s
  unfold ownResume
  iterate 5 (split; · exact .refl s)
  exact .of_worked (resumeOn_worked _ s) (resumeOn_once _)

theorem ownClear_within (p : Port) (f : Option Byte) : OwnerWithin (ownClear p f) := by
  intro s
  unfold ownClear
  iterate 6 (split; · exact .refl s)
  exact .of_worked (applyClear_worked _ _ s) (applyClear_once _ _)

theorem ownConsent_within (p : Port) (elems : List Byte) : OwnerWithin (ownConsent p elems) := by
  intro s
  unfold ownConsent
  iterate 2 (split; · exact .refl s)
  exact .of_worked (consentAll_worked p elems s) (consentAll_once p elems)

theorem ownStopAll_within (p : Port) (f : Option Unit) : OwnerWithin (ownStopAll p f) := by
  intro s
  unfold ownStopAll
  iterate 3 (split; · exact .refl s)
  exact .of_worked (stopAll_worked s.stoppable s) (stopAll_once s.stoppable)

theorem ownClaim_within (p : Port) (f : Option Byte) : OwnerWithin (ownClaim p f) := by
  intro s
  unfold ownClaim
  iterate 5 (split; · exact .refl s)
  split
  · exact setHold_within _ _ s
  · split <;> exact .refl s
  · split
    · exact setHold_within _ _ s
    · exact .refl s

theorem ownRelease_within (p : Port) (f : Option Byte) : OwnerWithin (ownRelease p f) := by
  intro s
  unfold ownRelease
  iterate 4 (split; · exact .refl s)
  split
  · exact setHold_within _ _ s
  · exact .refl s

theorem ownGrant_within (p : Port) (f : Option (Byte × Byte)) : OwnerWithin (ownGrant p f) := by
  intro s
  unfold ownGrant
  iterate 7 (split; · exact .refl s)
  exact setHold_within _ _ s

theorem ownRevoke_within (p : Port) (f : Option Byte) : OwnerWithin (ownRevoke p f) := by
  intro s
  unfold ownRevoke
  iterate 5 (split; · exact .refl s)
  exact setHold_within _ _ s

theorem ownPuClear_within (p : Port) (f : Option Byte) : OwnerWithin (ownPuClear p f) := by
  intro s
  unfold ownPuClear
  iterate 4 (split; · exact .refl s)
  split
  · exact .refl s
  · next u _ fault =>
    rw [not_not] at fault
    split
    · exact .refl s
    · have cleared : WithinBounds s (s.modUnit u UnitRun.cleared) :=
        modUnit_within s u _ (fun _ => rfl) (no_holders (by rw [fault]; decide))
      exact cleared.trans (.of_worked (startChecks_ran _).toWorked startChecks_once)

theorem enterAlarm_within (p : Port) (z : ZoneId) (s : State) : WithinBounds s (enterAlarm p z s) := by
  unfold enterAlarm
  dsimp only
  have raised := (modZone_within s z (ZoneRun.alarm s.time s.tCnf p)).trans
    (raise_within _ .zoneAlarm (zoneByte z) (wordOf p.val))
  generalize State.raise _ _ _ _ = v at raised ⊢
  refine raised.trans ?_
  split
  · have joined : WithinBounds v (v.setAlarmed (v.etu.alarmed ||| zoneBit z)) :=
      .of_same rfl rfl rfl rfl (.of_same rfl rfl fun _ => rfl)
    have doors := WithinBounds.of_worked (etuAlarm_worked z v) (etuAlarm_once z)
    have muted := modCsc_within (etuAlarm z v) (fun c => { c with muted := c.muted ||| zoneBit z }) id id
    exact ((joined.trans doors).trans muted).trans (.of_called (cscAlarm_called z _))
  · exact .refl v

theorem leaveAlarm_within (p : Port) (z : ZoneId) (s : State) : WithinBounds s (leaveAlarm p z s) := by
  unfold leaveAlarm
  dsimp only
  have raised := (modZone_within s z ZoneRun.normal).trans (raise_within _ .zoneReset (zoneByte z) (wordOf p.val))
  generalize State.raise _ _ _ _ = v at raised ⊢
  refine raised.trans ?_
  split
  · have left : WithinBounds v (v.setAlarmed (v.etu.alarmed &&& ~~~zoneBit z)) :=
      .of_same rfl rfl rfl rfl (.of_same rfl rfl fun _ => rfl)
    have doors := WithinBounds.of_worked (etuNormal_worked z v) (etuNormal_once z)
    have removed := remove_kept (fun e => decide (e.cancel = .zoneNormal z)) (etuNormal z v).csc
    have unmuted := unmute_queue z ((etuNormal z v).csc.remove fun e => decide (e.cancel = .zoneNormal z))
    have without := modCsc_within (etuNormal z v) (Csc.remove fun e => e.cancel = .zoneNormal z) removed.queue removed.stack
    have calls := modCsc_within ((etuNormal z v).modCsc (Csc.remove fun e => e.cancel = .zoneNormal z)) (Csc.unmute z)
      unmuted.2.1 unmuted.2.2
    exact (((left.trans doors).trans without).trans calls).trans (.of_called (cscNormal_called z _ _))
  · exact .refl v

theorem zoneRequest_within (p : Port) (f : Option Byte) (act : ZoneId → Owner) (h : ∀ z, OwnerWithin (act z)) :
    OwnerWithin (zoneRequest p f act) := by
  intro s
  unfold zoneRequest
  iterate 4 (split; · exact .refl s)
  exact h _ s

theorem ownZoneAlarm_within (p : Port) (f : Option Byte) : OwnerWithin (ownZoneAlarm p f) := by
  refine zoneRequest_within p f _ fun z s => ?_
  split
  · exact .refl s
  · exact enterAlarm_within p z s

theorem ownZoneConfirm_within (p : Port) (f : Option Byte) : OwnerWithin (ownZoneConfirm p f) := by
  refine zoneRequest_within p f _ fun z s => ?_
  split
  · exact .refl s
  · exact modZone_within s z _
  · exact .refl s

theorem ownZoneReset_within (p : Port) (f : Option Byte) : OwnerWithin (ownZoneReset p f) := by
  refine zoneRequest_within p f _ fun z s => ?_
  split
  · exact leaveAlarm_within p z s
  · exact .refl s

theorem ownCall_within (p : Port) (f : Option CallFields) : OwnerWithin (ownCall p f) := by
  intro s
  unfold ownCall
  iterate 7 (split; · exact .refl s)
  have accepts {n : NewCall} {t : State} {a : Accepted} (h : accept n s = (t, a)) : WithinBounds s t := by
    have taken := WithinBounds.of_called (accept_called n s)
    rwa [h] at taken
  split
  · next merged => exact accepts merged
  · next new => exact (accepts new).trans (.of_called (select_called _))
  · next full => exact accepts full

theorem ownWithdraw_within (p : Port) (f : Option Byte) : OwnerWithin (ownWithdraw p f) := by
  intro s
  unfold ownWithdraw
  iterate 4 (split; · exact .refl s)
  exact .of_called ((modCsc_called s _ (remove_kept _ _)).trans (select_called _))

theorem collectOn_within (e : ElemId) (c : ElementCfg) : OwnerWithin (collectOn e c) := by
  intro s
  have same : (collectOn e c s).1.ports = s.ports ∧ (collectOn e c s).1.rpu = s.rpu ∧
      (collectOn e c s).1.csc = s.csc ∧ (collectOn e c s).1.dpm = s.dpm := by
    unfold collectOn
    dsimp only
    split <;> exact ⟨rfl, rfl, rfl, rfl⟩
  obtain ⟨ports, rpu, csc, dpm⟩ := same
  refine ⟨fun p => ?_, by rw [rpu]; exact id, by rw [csc]; exact id, by rw [csc]; exact id,
    slots_of_units fun u => by unfold State.unit; rw [dpm], collectOn_once e c⟩
  unfold State.port
  rw [ports]
  exact .refl _

theorem ownCollect_within (f : Option Byte) : OwnerWithin (ownCollect f) := by
  intro s
  unfold ownCollect
  iterate 4 (split; · exact .refl s)
  exact collectOn_within _ _ s

theorem ownCollectNext_within (p : Port) (f : Option Unit) : OwnerWithin (ownCollectNext p f) := by
  intro s
  unfold ownCollectNext
  iterate 2 (split; · exact .refl s)
  split
  · exact collectOn_within _ _ s
  · exact .refl s

theorem ownSetMask_within (p : Port) (f : Option Byte) : OwnerWithin (ownSetMask p f) := by
  intro s
  unfold ownSetMask
  iterate 2 (split; · exact .refl s)
  next m =>
    have masked : WithinBounds s (s.setMask p m) := .of_same rfl rfl rfl rfl (.of_same rfl rfl fun _ => rfl)
    exact masked.trans (.of_reported (upAttention_reported _ p _))

/-- The oldest event leaves the queue (R165). -/
theorem ownFetchEvent_within (p : Port) (f : Option Unit) : OwnerWithin (ownFetchEvent p f) := by
  intro s
  unfold ownFetchEvent
  iterate 2 (split; · exact .refl s)
  split
  · exact .refl s
  · next e es queue =>
    exact ⟨fun _ => .refl _, fun full => (Nat.le_succ _).trans (by rw [queue] at full; exact full), id, id, id,
      (UsersKept.of_same (s := s) (t := { s with rpu := { s.rpu with events := es } }) rfl rfl fun _ => rfl).once⟩

theorem ownCfgWrite_within (p : Port) (f : Option WriteFields) : OwnerWithin (ownCfgWrite p f) := by
  intro s
  unfold ownCfgWrite
  iterate 2 (split; · exact .refl s)
  exact .of_same rfl rfl rfl rfl (.of_same rfl rfl fun _ => rfl)

theorem ownCfgRead_within (p : Port) (f : Option (Byte × Byte)) : OwnerWithin (ownCfgRead p f) := by
  intro s
  unfold ownCfgRead
  iterate 2 (split; · exact .refl s)
  exact .refl s

theorem ownCfgCommit_within (p : Port) (f : Option Unit) : OwnerWithin (ownCfgCommit p f) := by
  intro s
  unfold ownCfgCommit
  split
  · exact .refl s
  · exact .of_same rfl rfl rfl rfl (.of_same rfl rfl fun _ => rfl)

/-- Every request code, whatever its payload. -/
theorem ownerOf_within (p : Port) (code : Byte) (bs : List Byte) : OwnerWithin (ownerOf p code bs) := by
  unfold ownerOf
  split
  · exact ownPoll_within _
  · exact ownPartView_within _
  · exact ownSoftReset_within p _
  · exact ownView_within _
  · exact ownModify_within p _
  · exact ownStart_within p _
  · exact ownHalt_within p _
  · exact ownResume_within p _
  · exact ownClear_within p _
  · exact ownConsent_within p _
  · exact ownStopAll_within p _
  · exact ownClaim_within p _
  · exact ownRelease_within p _
  · exact ownGrant_within p _
  · exact ownRevoke_within p _
  · exact ownPuClear_within p _
  · exact ownPuView_within _
  · exact ownZoneAlarm_within p _
  · exact ownZoneConfirm_within p _
  · exact ownZoneReset_within p _
  · exact ownZoneView_within _
  · exact ownCall_within p _
  · exact ownWithdraw_within p _
  · exact ownCallList_within _
  · exact ownCollect_within _
  · exact ownCollectNext_within p _
  · exact ownSetMask_within p _
  · exact ownFetchEvent_within p _
  · exact ownCfgWrite_within p _
  · exact ownCfgRead_within p _
  · exact ownCfgCommit_within p _
  · exact fun s => .refl s

end Sys2Proof.Machine.Slots

/-!
Every command keeps the bounds: the hand-over of requests, the links, the timers, the field line and a reset, and with them every step
(R89, R91, R121, R162, R171, R172).
-/

namespace Sys2Proof.Machine.Slots

/-! ### What a command keeps -/

/-- Every queue within its capacity, the slots within the units' and held once: each stays so. -/
structure KeepsBounds (s t : State) : Prop where
  bounded : Bounded s → Bounded t
  slots   : SlotsInCapacity s → SlotsInCapacity t
  once    : SlotsHeldOnce s → SlotsHeldOnce t

theorem KeepsBounds.refl (s : State) : KeepsBounds s s := ⟨id, id, id⟩

theorem KeepsBounds.trans {a b c : State} (h : KeepsBounds a b) (k : KeepsBounds b c) : KeepsBounds a c :=
  ⟨fun x => k.bounded (h.bounded x), fun x => k.slots (h.slots x), fun x => k.once (h.once x)⟩

theorem WithinBounds.keeps {s t : State} (w : WithinBounds s t) : KeepsBounds s t := by
  refine ⟨fun ⟨ports, events, queue, stack⟩ => ⟨fun p => ?_, w.events events, w.queue queue, w.stack stack⟩, w.slots,
    w.once⟩
  rw [(w.grew p).kept.rx]
  exact ⟨(ports p).1, (w.grew p).bound (ports p).2⟩

/-- A change of one port's record that keeps its FIFOs within their capacities. -/
theorem modPort_keeps (s : State) (p : Port) (f : PortRec → PortRec)
    (rx : (s.port p).rx.length ≤ rxCapacity → (f (s.port p)).rx.length ≤ rxCapacity)
    (tx : (s.port p).tx.length ≤ txCapacity → (f (s.port p)).tx.length ≤ txCapacity) :
    KeepsBounds s (s.modPort p f) := by
  refine ⟨fun ⟨ports, rest⟩ => ⟨fun q => ?_, rest⟩, id,
    (UsersKept.of_same (s := s) (t := s.modPort p f) rfl rfl fun _ => rfl).once⟩
  rw [modPort_port]
  split
  · next hq => subst hq; exact ⟨rx (ports q).1, tx (ports q).2⟩
  · exact ports q

/-! ### Hand-over -/

/-- A reply takes no more than the place reserved for it (R173, R180). -/
theorem place_tx_length (seq : Byte) (reply : Reply) (r : PortRec)
    (reserved : reply = .softOk → ∃ t ∈ r.tx, t.isReserved = true) : (r.place seq reply).tx.length ≤ r.tx.length := by
  cases reply with
  | response a data => simp [PortRec.place]
  | later => exact le_refl _
  | softOk =>
    obtain ⟨t, ht, res⟩ := reserved rfl
    have fewer : (r.tx.filter fun t => !t.isReserved).length < r.tx.length :=
      List.length_filter_lt_length_iff_exists.2 ⟨t, ht, by simp [res]⟩
    have one : (r.placeSoftOk seq).tx.length = (r.tx.filter fun t => !t.isReserved).length + 1 := by
      unfold PortRec.placeSoftOk
      dsimp only
      split
      · rw [List.length_append, List.length_cons, ← Nat.add_assoc, ← List.length_append, List.take_append_drop]
      · rfl
    change (r.placeSoftOk seq).tx.length ≤ _
    omega

theorem place_rx (seq : Byte) (reply : Reply) (r : PortRec) : (r.place seq reply).rx = r.rx := by
  cases reply <;> rfl

/-- A request is taken where a place is free for its response (R173). -/
theorem take_keeps {p : Port} {owner : Owner} (seq code : Byte) (s : State) (room : (s.port p).tx.length < txCapacity)
    (ho : OwnerWithin owner) : KeepsBounds s (take p seq code owner s) := by
  unfold take
  dsimp only
  have reserved : KeepsBounds s (s.reserve p seq code) :=
    modPort_keeps s p _ id fun _ => by rw [List.length_append, List.length_singleton]; exact room
  have worked := ho (s.reserve p seq code)
  obtain ⟨rest, grows, -⟩ := (worked.grew p).grows
  have tail : TxPlace.reserved seq code ∈ ((s.reserve p seq code).port p).tx := by
    unfold State.reserve
    rw [modPort_port, if_pos rfl]
    exact List.mem_append_right _ (List.mem_singleton.2 rfl)
  refine ((reserved.trans worked.keeps).trans (modPort_keeps _ p _ ?_ ?_)).trans (finishReports_within _ _).keeps
  · rw [place_rx]
    exact id
  · exact (place_tx_length seq _ _ fun _ => ⟨_, grows ▸ List.mem_append_left rest tail, rfl⟩).trans

theorem request_keeps {p : Port} {owner : Owner} (seq code : Byte) (s : State) (ho : OwnerWithin owner) :
    KeepsBounds s (request p seq code owner s) := by
  by_cases hr : Ready p s
  · rw [request_ready hr]; exact take_keeps seq code s hr.room ho
  · rw [request_not_ready hr]; exact .refl s

theorem canHandOn_room {r : PortRec} (h : r.canHandOn = true) : r.tx.length < txCapacity := by
  unfold PortRec.canHandOn at h
  simp only [Bool.and_eq_true, decide_eq_true_eq] at h
  exact h.2

theorem popRequest_rx (r : PortRec) : r.popRequest.rx = r.rx.tail := by
  unfold PortRec.popRequest
  dsimp only
  split <;> rfl

theorem popRequest_tx (r : PortRec) : r.popRequest.tx = r.tx := by
  unfold PortRec.popRequest
  dsimp only
  split <;> rfl

theorem handOver_keeps (p : Port) (n : Nat) (s : State) : KeepsBounds s (handOver p n s) := by
  induction n generalizing s with
  | zero => exact .refl s
  | succ n ih =>
    unfold handOver
    split
    · exact .refl s
    · split
      · next ready =>
        have popped : KeepsBounds s (s.modPort p PortRec.popRequest) :=
          modPort_keeps s p _
            (fun full => by rw [popRequest_rx, List.length_tail]; exact (Nat.sub_le _ _).trans full)
            (fun full => by rw [popRequest_tx]; exact full)
        have room : ((s.modPort p PortRec.popRequest).port p).tx.length < txCapacity := by
          rw [modPort_port, if_pos rfl, popRequest_tx]
          exact canHandOn_room ready
        exact (popped.trans (take_keeps _ _ _ room (ownerOf_within p _ _))).trans (ih _)
      · exact .refl s

theorem handOn_keeps (p : Port) (s : State) : KeepsBounds s (handOn p s) := handOver_keeps p _ s

/-! ### Links -/

theorem portUpReport_within (p : Port) (s : State) : WithinBounds s (portUpReport p s) := by
  unfold portUpReport
  dsimp only
  refine WithinBounds.trans ?_ (modAuth_within _ p _)
  split
  · exact mapElems_within s _ fun r => by split <;> exact ⟨rfl, rfl⟩
  · exact .refl s

theorem portLostReport_within (p : Port) (s : State) : WithinBounds s (portLostReport p s) := by
  unfold portLostReport
  exact (mapElems_within s _ fun r => by split <;> exact ⟨rfl, rfl⟩).trans (modAuth_within _ p _)

theorem portUp_keeps (p : Port) (s : State) : KeepsBounds s (portUp p s) := by
  unfold portUp
  dsimp only
  exact (modPort_keeps s p (fun r => { r with link := .up, silence := some tSil }) id id).trans
    (((portUpReport_within p _).trans (raise_within _ _ _ _)).trans (.of_reported (upAttention_reported _ p _))).keeps

theorem supervise_keeps (p : Port) (s : State) : KeepsBounds s (supervise p s) := by
  unfold supervise
  split
  · exact modPort_keeps s p (fun r => { r with silence := some tSil }) id id
  · exact portUp_keeps p s

theorem loseLink_keeps (p : Port) (s : State) : KeepsBounds s (loseLink p s) :=
  (modPort_keeps s p PortRec.lose (fun _ => Nat.zero_le _) fun _ => Nat.zero_le _).trans
    ((raise_within _ _ _ _).trans (portLostReport_within p _)).keeps

/-- A frame beyond the eighth is discarded (R171). -/
theorem receive_rx_length (q : Request) (r : PortRec) (full : r.rx.length ≤ rxCapacity) :
    (r.receive q).rx.length ≤ rxCapacity := by
  have joined : (if r.rx.length < rxCapacity then r.rx ++ [q] else r.rx).length ≤ rxCapacity := by
    split
    · next room => rw [List.length_append]; exact room
    · exact full
  unfold PortRec.receive
  dsimp only
  generalize (if r.rx.length < rxCapacity then r.rx ++ [q] else r.rx) = rx at joined ⊢
  split <;> exact joined

theorem receive_tx (q : Request) (r : PortRec) : (r.receive q).tx = r.tx := by
  unfold PortRec.receive
  dsimp only
  rw [apply_ite PortRec.tx]
  exact ite_self _

/-- The owed attention is queued where 2 places are free (R175). -/
theorem frameLeaves_tx_length (r : PortRec) (full : r.tx.length ≤ txCapacity) :
    r.frameLeaves.tx.length ≤ txCapacity := by
  unfold PortRec.frameLeaves
  dsimp only
  split
  · next two =>
    have room : 2 ≤ txCapacity - r.tx.tail.length := two.2
    rw [List.length_append, List.length_singleton]
    omega
  · exact (List.length_tail ▸ Nat.sub_le _ _).trans full

theorem frameLeaves_rx (r : PortRec) : r.frameLeaves.rx = r.rx := by
  unfold PortRec.frameLeaves
  dsimp only
  split <;> rfl

/-! ### A tick and a reset -/

theorem tick_keeps (s : State) : KeepsBounds s (tick s) := by
  refine ⟨fun ⟨ports, events, queue, stack⟩ => ⟨fun p => ?_, ?_, ?_, ?_⟩, fun h u => ?_, UsersKept.once ?_⟩
  · rw [tick_port]; exact ports p
  · rw [tick_rpu]; exact events
  · rw [tick_csc, List.length_map]; exact queue
  · rw [tick_csc]; exact stack
  · rw [tick_unit]; exact h u
  · refine ⟨slotUsers_of_same (fun u => by rw [tick_unit]; rfl) (tick_queue s), by rw [tick_cfg], fun e => ?_,
      fun e => ?_⟩ <;> rw [tick_elem] <;> rfl

/-- After a reset every queue is empty but the event queue, and no slot is held or waited for (R79, R166, R180). -/
theorem fresh_keeps (first : EventKind) (source : Byte) (st : Straps) (img : Image) (s : State) :
    KeepsBounds s (fresh first source st img s) := by
  refine ⟨fun _ => ⟨fun p => ?_, ?_, Nat.zero_le _, Nat.zero_le _⟩, fun _ u => ?_, fun _ => ?_⟩
  · rw [fresh_port]
    exact ⟨Nat.zero_le _, Nat.zero_le _⟩
  · change (startEvents first source (startUpOf st.modeHigh s.cfg.valid)).length ≤ eventCapacity
    unfold startEvents
    split <;> simp [eventCapacity]
  · rw [fresh_unit]
    exact ⟨Nat.zero_le _, fun some => absurd rfl some⟩
  · have users : (fresh first source st img s).slotUsers = [] := by
      unfold State.slotUsers
      simp only [fresh_unit]
      rfl
    refine ⟨by rw [users]; exact List.nodup_nil, by rw [users]; simp, fun e ended => ?_⟩
    rw [fresh_elem] at ended ⊢
    unfold elemAtReset at ended
    split at ended <;> cases ended

theorem startPart_keeps (first : EventKind) (source : Byte) (st : Straps) (s : State) :
    KeepsBounds s (startPart first source st s) := by
  unfold startPart
  dsimp only
  refine (fresh_keeps first source st (loadedImage s.cfg) s).trans ?_
  split
  · exact (WithinBounds.of_called (faultRises_called _)).keeps
  · exact .refl _

/-! ### The field line -/

theorem fieldAnswer_within (order : BlockOrder) (n : NodeId) (bits : Word16) (s : State) :
    WithinBounds s (fieldAnswer order n bits s) := by
  unfold fieldAnswer
  dsimp only
  have online := modNode_within s n fun r => { r with state := .online, misses := 0, inputs := some bits }
  generalize s.modNode n _ = v at online ⊢
  refine online.trans ?_
  have back : WithinBounds v (if (s.node n).state = .lost then v.raise .nodeBack (byteOf n.val) 0 else v) := by
    split
    · exact raise_within v _ _ _
    · exact .refl v
  generalize (if (s.node n).state = .lost then v.raise .nodeBack (byteOf n.val) 0 else v) = x at back ⊢
  refine back.trans ?_
  split
  · exact .refl x
  · exact notify_within _ _ _ _ _

theorem fieldMiss_within (order : BlockOrder) (n : NodeId) (s : State) : WithinBounds s (fieldMiss order n s) := by
  unfold fieldMiss
  split
  · split
    · exact modNode_within s n _
    · exact (((modNode_within s n _).trans (raise_within _ _ _ _)).trans (modNode_within _ n _)).trans
        (notify_within _ _ _ _ _)
  · exact .refl s

theorem endExchange_within (s : State) : WithinBounds s (endExchange s) :=
  .of_same rfl rfl rfl rfl (.of_same rfl rfl fun _ => rfl)

/-! ### Every command -/

/-- A command ends in a state within the same bounds. -/
def ExecKeeps (c : Instr) (s : State) : Prop := ∃ t, exec c s = .next t ∧ KeepsBounds s t

theorem stationFrameReceived_keeps (p : Port) (chars : List LineChar) (s : State) :
    ExecKeeps (.stationFrameReceived p chars) s := by
  refine ⟨_, rfl, ?_⟩
  split
  · split
    · next q _ =>
      exact ((supervise_keeps p s).trans (modPort_keeps _ p _ (receive_rx_length q _)
        fun full => by rw [receive_tx]; exact full)).trans (handOn_keeps p _)
    · exact .refl s
  · exact .refl s

theorem pauseReceived_keeps (p : Port) (s : State) : ExecKeeps (.pauseReceived p) s := by
  refine ⟨_, rfl, ?_⟩
  split
  · exact modPort_keeps s p (fun r => { r with paused := true }) id id
  · exact .refl s

theorem continueReceived_keeps (p : Port) (s : State) : ExecKeeps (.continueReceived p) s := by
  refine ⟨_, rfl, ?_⟩
  split
  · exact modPort_keeps s p (fun r => { r with paused := false }) id id
  · exact .refl s

theorem txFrameStart_keeps (p : Port) (s : State) : ExecKeeps (.txFrameStart p) s := by
  refine ⟨_, rfl, ?_⟩
  split
  · next t _ => exact modPort_keeps s p (fun r => { r with sending := true, txd := t.chars p }) id id
  · exact .refl s

theorem linkCharacterSend_keeps (p : Port) (s : State) : ExecKeeps (.linkCharacterSend p) s := by
  refine ⟨_, rfl, ?_⟩
  split
  · split
    · next c _ => exact modPort_keeps s p (fun r => { r with waiting := none, txd := [c.byte] }) id id
    · exact .refl s
  · exact .refl s

theorem txFrameSent_keeps (p : Port) (st : Straps) (s : State) : ExecKeeps (.txFrameSent p st) s := by
  refine ⟨_, rfl, ?_⟩
  split
  · split
    · exact startPart_keeps _ _ st s
    · exact (modPort_keeps s p _ (fun full => by rw [frameLeaves_rx]; exact full) (frameLeaves_tx_length _)).trans
        (handOn_keeps p _)
  · exact .refl s

theorem silenceTimeout_keeps (p : Port) (st : Straps) (s : State) : ExecKeeps (.silenceTimeout p st) s := by
  refine ⟨_, rfl, ?_⟩
  split
  · split
    · exact startPart_keeps _ _ st s
    · exact loseLink_keeps p s
  · exact .refl s

theorem cfgCommitDone_keeps (s : State) : ExecKeeps .cfgCommitDone s := by
  refine ⟨_, rfl, ?_⟩
  split
  · exact .refl s
  · next p _ =>
    have ended : WithinBounds s
        { s with cfg := { s.cfg with committing := none, valid := (validate s.cfg.image).isNone } } :=
      .of_same rfl rfl rfl rfl (.of_same rfl rfl fun _ => rfl)
    have placed := place_tx_length 0 (commitReply (validate s.cfg.image)) (s.port p) fun soft => by
      cases failed : validate s.cfg.image <;> rw [failed] at soft <;> cases soft
    exact (ended.keeps.trans (modPort_keeps _ p _ (fun full => by rw [place_rx]; exact full) placed.trans)).trans
      (handOn_keeps p _)

theorem orphanTimeout_keeps (p : Port) (s : State) : ExecKeeps (.orphanTimeout p) s := by
  refine ⟨_, rfl, ?_⟩
  split
  · unfold dropOrphans
    exact (((mapElems_within s _ fun r => by split <;> exact ⟨rfl, rfl⟩).trans (modAuth_within _ p _)).trans
      (raise_within _ _ _ _)).keeps
  · exact .refl s

theorem confirmTimerExpiry_keeps (z : ZoneId) (s : State) : ExecKeeps (.confirmTimerExpiry z) s := by
  refine ⟨_, rfl, ?_⟩
  split
  · exact ((modZone_within s z _).trans (raise_within _ _ _ _)).keeps
  · exact .refl s

theorem modPa_within (s : State) (f : PaPort → PaPort) : WithinBounds s (s.modPa f) := modCsc_within s _ id id

theorem busyRise_keeps (s : State) : ExecKeeps .busyRise s := by
  refine ⟨_, rfl, ?_⟩
  split
  · exact .refl s
  · have high := modPa_within s fun r => { r with busy := true }
    dsimp only
    split
    · exact (high.trans (.of_called (modCsc_called _ _ (busyRises_kept _)))).keeps
    · exact high.keeps

theorem busyFall_keeps (s : State) : ExecKeeps .busyFall s := by
  refine ⟨_, rfl, ?_⟩
  split
  · have low := modPa_within s fun r => { r with busy := false }
    dsimp only
    split
    · exact (low.trans (.of_called ((busyFalls_called _).trans (select_called _)))).keeps
    · exact low.keeps
  · exact .refl s

theorem paFaultRise_keeps (s : State) : ExecKeeps .paFaultRise s := by
  refine ⟨_, rfl, ?_⟩
  split
  · exact .refl s
  · exact ((modPa_within s fun r => { r with fault := true }).trans (.of_called (faultRises_called _))).keeps

theorem paFaultFall_keeps (s : State) : ExecKeeps .paFaultFall s := by
  refine ⟨_, rfl, ?_⟩
  split
  · have low := modPa_within s fun r => { r with fault := false }
    dsimp only
    split
    · exact ((low.trans (modPa_within _ _)).trans (.of_called (select_called _))).keeps
    · exact low.keeps
  · exact .refl s

/-- A limit of the PA port, due or not (R133). -/
theorem paLimit_keeps (st : PaState) (cause : PaCause) (s : State) :
    KeepsBounds s (if s.paDue st then paFault cause s else s) := by
  split
  · exact (WithinBounds.of_called (paFault_called cause s)).keeps
  · exact .refl s

theorem intervalExpiry_keeps (id : Byte) (s : State) : ExecKeeps (.intervalExpiry id) s := by
  refine ⟨_, rfl, ?_⟩
  split
  · next e _ =>
    split
    · have queued := modCsc_within s
        (fun c => { c with queue := c.queue.map fun x => if x.id = id then x.endInterval else x })
        (fun full => by rw [List.length_map]; exact full) fun full => full
      dsimp only
      refine (WithinBounds.trans ?_ (.of_called (select_called _))).keeps
      split
      · exact queued.trans (.of_called (modCsc_called _ _ (preempt_kept _ _)))
      · exact queued
    · exact .refl s
  · exact .refl s

theorem callExpiry_keeps (id : Byte) (s : State) : ExecKeeps (.callExpiry id) s := by
  refine ⟨_, rfl, ?_⟩
  split
  · split
    · split
      · exact (modCsc_within s _ (fun full => full) fun full => full).keeps
      · exact (WithinBounds.of_called ((modCsc_called s _ (remove_kept _ _)).trans (select_called _))).keeps
    · exact .refl s
  · exact .refl s

theorem fieldExchangeStart_keeps (s : State) : ExecKeeps .fieldExchangeStart s := by
  refine ⟨_, rfl, ?_⟩
  split
  · split
    · exact .refl s
    · next n _ _ _ =>
      exact (WithinBounds.of_same (s := s) (t := finishOut n (startOut n s)) rfl rfl rfl rfl
        (.of_same rfl rfl fun _ => rfl)).keeps
  · exact .refl s

theorem fieldFrameReceived_keeps (chars : List LineChar) (order : BlockOrder) (s : State) :
    ExecKeeps (.fieldFrameReceived chars order) s := by
  refine ⟨_, rfl, ?_⟩
  split
  · exact .refl s
  · split
    · exact ((endExchange_within s).trans (fieldAnswer_within _ _ _ _)).keeps
    · exact ((endExchange_within s).trans (fieldMiss_within _ _ _)).keeps

theorem fieldAnswerTimeout_keeps (order : BlockOrder) (s : State) : ExecKeeps (.fieldAnswerTimeout order) s := by
  refine ⟨_, rfl, ?_⟩
  split
  · exact .refl s
  · exact ((endExchange_within s).trans (fieldMiss_within _ _ _)).keeps

theorem startTimerExpiry_keeps (u : UnitId) (s : State) : ExecKeeps (.startTimerExpiry u) s := by
  refine ⟨_, rfl, ?_⟩
  split
  · exact ((faultUnit_within u _ s).trans (finishReports_within s _)).keeps
  · exact .refl s

theorem driveStart_within (u : UnitId) (b : Bool) (s : State) : WithinBounds s (driveStart u b s) :=
  .of_worked (drive_ran s _ b).toWorked (drive_usersKept s _ b).once

/-- A unit in READY has no holder, so it may go OFF (R83, R91). -/
theorem idleTimerExpiry_keeps (u : UnitId) (s : State) : ExecKeeps (.idleTimerExpiry u) s := by
  refine ⟨_, rfl, ?_⟩
  split
  · next due =>
    have off := modUnit_within s u (fun r => { r with state := .off, idleTimer := none }) (fun _ => rfl)
      (no_holders (by rw [due.1]; decide))
    exact (off.trans (driveStart_within u false _)).keeps
  · exact .refl s

/-- The work of a timer of an operation, and the end of its event. -/
theorem timer_keeps {s t : State} (w : Worked s t) (once : SlotsHeldOnce s → SlotsHeldOnce t) :
    KeepsBounds s (finishReports s t) := ((WithinBounds.of_worked w once).trans (finishReports_within s t)).keeps

theorem exec_keeps (c : Instr) (s : State) : ExecKeeps c s := by
  have handled {p : Port} (seq code : Byte) {owner : Owner} (ho : OwnerWithin owner) :
      KeepsBounds s (request p seq code owner s) := request_keeps seq code s ho
  cases c with
  | reset st => exact ⟨_, rfl, startPart_keeps _ _ st s⟩
  | timeBaseTick => exact ⟨_, rfl, tick_keeps s⟩
  | stationFrameReceived p chars => exact stationFrameReceived_keeps p chars s
  | pauseReceived p => exact pauseReceived_keeps p s
  | continueReceived p => exact continueReceived_keeps p s
  | txFrameStart p => exact txFrameStart_keeps p s
  | linkCharacterSend p => exact linkCharacterSend_keeps p s
  | txFrameSent p st => exact txFrameSent_keeps p st s
  | silenceTimeout p st => exact silenceTimeout_keeps p st s
  | poll p seq => exact ⟨_, rfl, handled seq _ (ownPoll_within _)⟩
  | partView p seq => exact ⟨_, rfl, handled seq _ (ownPartView_within _)⟩
  | softReset p seq => exact ⟨_, rfl, handled seq _ (ownSoftReset_within p _)⟩
  | view p seq e => exact ⟨_, rfl, handled seq _ (ownView_within _)⟩
  | modify p seq f => exact ⟨_, rfl, handled seq _ (ownModify_within p _)⟩
  | start p seq f => exact ⟨_, rfl, handled seq _ (ownStart_within p _)⟩
  | halt p seq e => exact ⟨_, rfl, handled seq _ (ownHalt_within p _)⟩
  | resume p seq e => exact ⟨_, rfl, handled seq _ (ownResume_within p _)⟩
  | clear p seq e => exact ⟨_, rfl, handled seq _ (ownClear_within p _)⟩
  | consent p seq es => exact ⟨_, rfl, handled seq _ (ownConsent_within p es)⟩
  | stopAll p seq => exact ⟨_, rfl, handled seq _ (ownStopAll_within p _)⟩
  | claim p seq e => exact ⟨_, rfl, handled seq _ (ownClaim_within p _)⟩
  | release p seq e => exact ⟨_, rfl, handled seq _ (ownRelease_within p _)⟩
  | grant p seq e q => exact ⟨_, rfl, handled seq _ (ownGrant_within p _)⟩
  | revoke p seq e => exact ⟨_, rfl, handled seq _ (ownRevoke_within p _)⟩
  | puClear p seq u => exact ⟨_, rfl, handled seq _ (ownPuClear_within p _)⟩
  | puView p seq pos => exact ⟨_, rfl, handled seq _ (ownPuView_within _)⟩
  | zoneAlarm p seq z => exact ⟨_, rfl, handled seq _ (ownZoneAlarm_within p _)⟩
  | zoneConfirm p seq z => exact ⟨_, rfl, handled seq _ (ownZoneConfirm_within p _)⟩
  | zoneReset p seq z => exact ⟨_, rfl, handled seq _ (ownZoneReset_within p _)⟩
  | zoneView p seq z => exact ⟨_, rfl, handled seq _ (ownZoneView_within _)⟩
  | confirmTimerExpiry z => exact confirmTimerExpiry_keeps z s
  | call p seq f => exact ⟨_, rfl, handled seq _ (ownCall_within p _)⟩
  | withdraw p seq id => exact ⟨_, rfl, handled seq _ (ownWithdraw_within p _)⟩
  | callList p seq pos => exact ⟨_, rfl, handled seq _ (ownCallList_within _)⟩
  | busyRise => exact busyRise_keeps s
  | busyFall => exact busyFall_keeps s
  | paFaultRise => exact paFaultRise_keeps s
  | paFaultFall => exact paFaultFall_keeps s
  | paAnswerTimeout => exact ⟨_, rfl, paLimit_keeps .starting .answerLimit s⟩
  | paPlayTimeout => exact ⟨_, rfl, paLimit_keeps .playing .playLimit s⟩
  | paStopTimeout => exact ⟨_, rfl, paLimit_keeps .stopping .stopLimit s⟩
  | intervalExpiry id => exact intervalExpiry_keeps id s
  | callExpiry id => exact callExpiry_keeps id s
  | collect p seq e => exact ⟨_, rfl, handled seq _ (ownCollect_within _)⟩
  | collectNext p seq => exact ⟨_, rfl, handled seq _ (ownCollectNext_within p _)⟩
  | setMask p seq m => exact ⟨_, rfl, handled seq _ (ownSetMask_within p _)⟩
  | fetchEvent p seq => exact ⟨_, rfl, handled seq _ (ownFetchEvent_within p _)⟩
  | cfgWrite p seq f => exact ⟨_, rfl, handled seq _ (ownCfgWrite_within p _)⟩
  | cfgRead p seq sect entry => exact ⟨_, rfl, handled seq _ (ownCfgRead_within p _)⟩
  | cfgCommit p seq => exact ⟨_, rfl, handled seq _ (ownCfgCommit_within p _)⟩
  | cfgCommitDone => exact cfgCommitDone_keeps s
  | fieldExchangeStart => exact fieldExchangeStart_keeps s
  | fieldFrameReceived chars order => exact fieldFrameReceived_keeps chars order s
  | fieldAnswerTimeout order => exact fieldAnswerTimeout_keeps order s
  | stageTimerExpiry e => exact ⟨_, rfl, timer_keeps (stageTimer_worked e s) (stageTimer_once e)⟩
  | stageLimitExpiry e => exact ⟨_, rfl, timer_keeps (stageLimitReached_worked e s) (stageLimitReached_once e)⟩
  | consentWindowExpiry e => exact ⟨_, rfl, timer_keeps (windowExpires_atElem e s).toWorked (windowExpires_once e)⟩
  | suspensionTimeout e => exact ⟨_, rfl, timer_keeps (suspensionExpires_worked e s) (suspensionExpires_once e)⟩
  | orphanTimeout p => exact orphanTimeout_keeps p s
  | startTimerExpiry u => exact startTimerExpiry_keeps u s
  | idleTimerExpiry u => exact idleTimerExpiry_keeps u s

/-- A step is its front command, or idle. -/
theorem step_keeps {s t : State} (h : step s = .next t) : KeepsBounds s t := by
  unfold step at h
  split at h
  · cases h
    exact .refl s
  · next c cs _ =>
    obtain ⟨t', ht', keeps⟩ := exec_keeps c { s with pending := cs }
    cases ht'.symm.trans h
    have dequeued : WithinBounds s { s with pending := cs } :=
      .of_same rfl rfl rfl rfl (.of_same rfl rfl fun _ => rfl)
    exact dequeued.keeps.trans keeps

/-- Settles O59: every step keeps the slots within their units' capacity. -/
theorem slotsKeepCapacity : Obligations.SlotsKeepCapacity := fun _ _ slots h => (step_keeps h).slots slots

/-- Settles O56: every step keeps the queues within their capacities and the slots held once, and a queue in which nobody waits twice
has at most as many entries as there are elements. -/
theorem queuesKeepCapacity : Obligations.QueuesKeepCapacity := by
  refine ⟨fun _ _ bounded h => (step_keeps h).bounded bounded, fun _ t once h => ?_⟩
  have held := (step_keeps h).once once
  exact ⟨held, ((heldOnce_iff t).1 held).queue_le⟩

end Sys2Proof.Machine.Slots

/-!
PU-CLEAR (R88, R93), and the expiries of a unit's start timer and idle timer (R80, R82, R83, R85): which elements and outputs a fault
can reach, and the whole of a fault with nobody to revoke or to wait.
-/

namespace Sys2Proof.Machine.Slots

/-! ### PU-CLEAR -/

/-- PU-CLEAR of an installed unit, from BRIDGE (R93). -/
theorem ownPuClear_named {p : Port} {b : Byte} {u : UnitId} {s : State} (mode : s.cfg.startUp ≠ .unconfigured)
    (bridge : s.role p = .bridge) (named : s.unit? b = some u) :
    ownPuClear p (some b) s =
      if (s.unit u).state ≠ .fault then answer .ok [(s.unit u).state.code] s
      else if !s.unitOnline u || s.input (s.unitCfg u).fault = some true then
        answer .condition [(s.unit u).reason.code] s
      else
        answer .ok [((startChecks (s.modUnit u UnitRun.cleared)).unit u).state.code]
          (startChecks (s.modUnit u UnitRun.cleared)) := by
  unfold ownPuClear
  rw [if_neg mode, if_neg (not_not.2 bridge)]
  simp only [named]

/-- With no waiter, or out of RUN, no start check is made (R88, R93). -/
theorem startChecks_of_quiet {s : State} (quiet : s.dpm.queue = [] ∨ s.cfg.startUp = .service) : startChecks s = s := by
  unfold startChecks
  split
  · next run =>
    have empty := quiet.resolve_right (by rw [run]; decide)
    rw [empty]
    exact dpm_nil s
  · rfl

/-- Settles O35: the three cases of R93, each answered by the request's one response. -/
theorem puClearReturnsToOff : Obligations.PuClearReturnsToOff := by
  intro p seq b u s ready mode bridge named
  have owner := ownPuClear_named (s := s.reserve p seq 0x30) mode
    ((Authority.reserve_role s p p seq 0x30).trans bridge) named
  refine ⟨fun sound => ?_, fun fault held => ?_, fun fault online clear quiet => ?_⟩ <;>
    refine congrArg Host.Outcome.next ?_
  · exact request_answers ready (owner.trans (if_pos sound))
  · refine request_answers ready (owner.trans ((if_neg (not_not.2 fault)).trans (if_pos ?_)))
    change (!s.unitOnline u || decide (s.input (s.unitCfg u).fault = some true)) = true
    rcases held with offline | raised
    · rw [offline]; rfl
    · rw [raised]; simp
  · have off : ((s.modUnit u UnitRun.cleared).unit u).state.code = 0 := by rw [modUnit_unit, if_pos rfl]; rfl
    refine request_works (u := s.modUnit u UnitRun.cleared) ready
      (owner.trans ((if_neg (not_not.2 fault)).trans ((if_neg ?_).trans ?_))) rfl (fun _ => rfl) fun _ _ => rfl
    · change ¬ (!s.unitOnline u || decide (s.input (s.unitCfg u).fault = some true)) = true
      simp [online, clear]
    · rw [startChecks_of_quiet (s := (s.reserve p seq 0x30).modUnit u UnitRun.cleared) quiet]
      exact congrArg (fun code => answer .ok [code] ((s.modUnit u UnitRun.cleared).reserve p seq 0x30)) off

/-! ### What a fault can reach -/

/-- Only these elements move, with their outputs and the start outputs of these units; and only they wait, where they did before. -/
structure MovesOnly (es : List ElemId) (us : List UnitId) (s t : State) : Prop where
  cfg     : t.cfg = s.cfg
  outputs : OutputsKept es us s t
  others  : ∀ e, e ∉ es → t.elem e = s.elem e
  waiting : (∀ w ∈ s.dpm.queue, w.elem ∈ es) → ∀ w ∈ t.dpm.queue, w.elem ∈ es

section
variable {es : List ElemId} {us : List UnitId}

theorem MovesOnly.refl (s : State) : MovesOnly es us s s := ⟨rfl, .refl es us s, fun _ _ => rfl, id⟩

theorem MovesOnly.trans {a b c : State} (h : MovesOnly es us a b) (k : MovesOnly es us b c) : MovesOnly es us a c :=
  ⟨k.cfg.trans h.cfg, h.outputs.trans h.cfg k.outputs, fun e he => (k.others e he).trans (h.others e he),
    fun w => k.waiting (h.waiting w)⟩

theorem foldl_movesOnly {α : Type} (f : State → α → State) (l : List α)
    (hf : ∀ s, ∀ a ∈ l, MovesOnly es us s (f s a)) (s : State) : MovesOnly es us s (l.foldl f s) := by
  induction l generalizing s with
  | nil => exact .refl s
  | cons a l ih =>
    exact (hf s a List.mem_cons_self).trans (ih (fun s b hb => hf s b (List.mem_cons_of_mem a hb)) _)

theorem MovesOnly.of_atElem {e : ElemId} {s t : State} (m : AtElem e s t) (he : e ∈ es) : MovesOnly es us s t :=
  ⟨m.cfg, m.outputs.mono (by simpa using he) (by simp), fun d hd => m.others d fun hde => hd (hde ▸ he),
    fun w => by rw [m.dpm]; exact w⟩

theorem driveStart_movesOnly {u : UnitId} (hu : u ∈ us) (b : Bool) (s : State) :
    MovesOnly es us s (driveStart u b s) :=
  ⟨driveStart_cfg u b s, driveStart_outputsKept es hu b s, fun e _ => driveStart_elem u b s e,
    fun w => by rw [driveStart_dpm]; exact w⟩

theorem modUnit_movesOnly (s : State) (u : UnitId) (f : UnitRun → UnitRun) : MovesOnly es us s (s.modUnit u f) :=
  ⟨rfl, .of_flc es us rfl, fun _ _ => rfl, id⟩

theorem setQueue_movesOnly (s : State) (q : List Waiter) (hq : ∀ w ∈ q, w.elem ∈ es) :
    MovesOnly es us s (s.setQueue q) := ⟨rfl, .of_flc es us rfl, fun _ _ => rfl, fun _ => hq⟩

theorem failPath_movesOnly (s : State) (w : Waiter) (hw : w.elem ∈ es) : MovesOnly es us s (failPath s w) := by
  unfold failPath
  split
  · exact .refl s
  · refine (MovesOnly.of_atElem (endOp_atElem w.elem .pathFailed s) hw).trans
      ⟨rfl, .of_flc es us rfl, fun _ _ => rfl, fun waiting x hx => waiting x (List.mem_of_mem_filter hx)⟩

/-- Tasks among which no grant is yet, while these elements alone wait. -/
theorem dpm_movesOnly (ts : List Task) (s : State) (waiting : ∀ w ∈ s.dpm.queue, w.elem ∈ es)
    (noGrant : ∀ e u, .arrive e u ∉ ts) : MovesOnly es units s (dpm ts s) := by
  have queue : ∀ (n : Nat) (ts : List Task) (s : State), ∀ w ∈ (runTasks n ts s).dpm.queue, w ∈ s.dpm.queue := by
    intro n
    induction n with
    | zero => exact fun _ _ _ hw => hw
    | succ n ih =>
      intro ts s w hw
      cases ts with
      | nil => exact hw
      | cons t ts => exact runTask_queue t s w (ih _ _ w hw)
  exact ⟨(dpm_ran ts s).cfg, dpm_outputs es units ts s waiting (fun e u h => absurd h (noGrant e u)) fun _ _ => rfl,
    fun e he => dpm_apart e ts s (fun w hw hwe => he (hwe ▸ waiting w hw)) fun u => noGrant e u,
    fun _ w hw => waiting w (queue _ ts s w hw)⟩

end

/-- A unit's fault moves its holders and those that wait, and no other element (R85, R92). -/
theorem faultUnit_movesOnly (u : UnitId) (reason : FaultReason) (s : State) :
    MovesOnly ((s.unit u).holders.map Holder.elem ++ s.dpm.queue.map Waiter.elem) units s (faultUnit u reason s) := by
  generalize hes : (s.unit u).holders.map Holder.elem ++ s.dpm.queue.map Waiter.elem = es
  have holds : ∀ h ∈ (s.unit u).holders, h.elem ∈ es := fun h hh => by
    rw [← hes]; exact List.mem_append_left _ (List.mem_map_of_mem hh)
  have waits : ∀ w ∈ s.dpm.queue, w.elem ∈ es := fun w hw => by
    rw [← hes]; exact List.mem_append_right _ (List.mem_map_of_mem hw)
  unfold faultUnit
  dsimp only
  have failed : MovesOnly es units s (driveStart u false (s.modUnit u (UnitRun.fail reason))) :=
    (modUnit_movesOnly s u _).trans (driveStart_movesOnly (List.mem_finRange u) false _)
  have revoked := failed.trans (foldl_movesOnly (us := units) (fun s h => revoke u h s) (s.unit u).holders
    (fun s h hh => .of_atElem (revoke_atElem u h s) (holds h hh)) (driveStart u false (s.modUnit u (UnitRun.fail reason))))
  generalize List.foldl _ _ _ = t at revoked ⊢
  have requeued := revoked.trans (setQueue_movesOnly t
    (((s.unit u).holders.filter Holder.multipath).map (Holder.waiter .path) ++ t.dpm.queue) fun w hw => by
      rcases List.mem_append.1 hw with hw | hw
      · obtain ⟨h, hh, rfl⟩ := List.mem_map.1 hw
        exact holds h (List.mem_of_mem_filter hh)
      · exact revoked.waiting waits w hw)
  generalize State.setQueue _ _ = v at requeued ⊢
  unfold queueCheck
  dsimp only
  have checked := requeued.trans (foldl_movesOnly (us := units) failPath v.dpm.queue
    (fun s w hw => failPath_movesOnly s w (requeued.waiting waits w hw)) v)
  exact checked.trans (dpm_movesOnly _ _ (checked.waiting waits) (by simp))

/-! ### A fault with nobody to revoke or to wait -/

/-- Walks of an empty queue do nothing (R90). -/
theorem runTasks_walks {s : State} (empty : s.dpm.queue = []) (n : Nat) (us : List UnitId) (ts : List Task) :
    runTasks (n + us.length) (us.map .walk ++ ts) s = runTasks n ts s := by
  induction us with
  | nil => rfl
  | cons u us ih =>
    have walk : taskWalk u s = (s, []) := by
      unfold taskWalk
      simp [empty]
    change runTasks (n + us.length + 1) (.walk u :: (us.map .walk ++ ts)) s = _
    rw [runTasks]
    unfold runTask
    dsimp only
    rw [walk]
    exact ih

/-- The unit's record, its start output and the event are then all there is (R85). -/
theorem faultUnit_quiet {u : UnitId} {s : State} (reason : FaultReason) (free : (s.unit u).holders = [])
    (empty : s.dpm.queue = []) :
    faultUnit u reason s =
      (driveStart u false (s.modUnit u (UnitRun.fail reason))).raise .puFault (byteOf u.val)
        (reason.code.setWidth 16) := by
  have queue : (driveStart u false (s.modUnit u (UnitRun.fail reason))).dpm.queue = [] := by
    rw [driveStart_dpm]
    exact empty
  have record : ((driveStart u false (s.modUnit u (UnitRun.fail reason))).unit u).reason = reason := by
    rw [driveStart_unit, modUnit_unit, if_pos rfl]
    rfl
  unfold faultUnit
  simp only [free, List.foldl_nil, List.filter_nil, List.map_nil, List.nil_append]
  generalize driveStart u false (s.modUnit u (UnitRun.fail reason)) = t at queue record ⊢
  have same : t.setQueue t.dpm.queue = t := rfl
  rw [same]
  unfold queueCheck
  simp only [queue, List.foldl_nil, List.map_nil, List.nil_append]
  unfold dpm
  have bound : taskBound = 1020 + units.length := rfl
  rw [bound, runTasks_walks queue]
  change t.raise .puFault (byteOf u.val) ((t.unit u).reason.code.setWidth 16) = _
  rw [record]

/-! ### The timers of a unit -/

theorem finishReports_onlyMotion (s0 s : State) : OnlyMotion s (finishReports s0 s) :=
  OnlyMotion.trans (b := relisted s0 s)
    ⟨rfl, rfl, fun _ => .refl _, fun _ => .refl _, rfl, rfl, rfl, rfl, rfl, fun _ => .refl _, rfl, rfl, rfl, rfl, rfl⟩
    (finishReports_reported s0 s).toOnlyMotion

theorem finishReports_unit (s0 s : State) (u : UnitId) : (finishReports s0 s).unit u = s.unit u :=
  (finishReports_reported s0 s).unit u

theorem finishReports_elem (s0 s : State) (e : ElemId) : (finishReports s0 s).elem e = s.elem e :=
  (finishReports_reported s0 s).elem e

theorem finishReports_flc (s0 s : State) : (finishReports s0 s).flc = s.flc := (finishReports_reported s0 s).flc

/-- A start output carries what was written last (R80). -/
theorem driveStart_carries {u : UnitId} {s : State} {w : Chan} (hw : (s.unitCfg u).startOut = some w) (b : Bool) :
    ((driveStart u b s).node w.node).outputs.getLsbD w.line.val = b :=
  (drive_output s (s.unitCfg u).startOut b w).trans (if_pos hw)

theorem driveStart_rpu (u : UnitId) (b : Bool) (s : State) : (driveStart u b s).rpu = s.rpu := by
  unfold driveStart State.drive
  split <;> rfl

theorem driveStart_ports (u : UnitId) (b : Bool) (s : State) : (driveStart u b s).ports = s.ports := by
  unfold driveStart State.drive
  split <;> rfl

section
variable (u : UnitId) (f : UnitRun → UnitRun) (s : State)

/-- The unit's record changes, and its start output goes off. -/
def switchedOff : State := driveStart u false (s.modUnit u f)

theorem switchedOff_unit (v : UnitId) : (switchedOff u f s).unit v = if v = u then f (s.unit v) else s.unit v :=
  (driveStart_unit u false _ v).trans (modUnit_unit s u v f)

theorem switchedOff_queue : (switchedOff u f s).dpm.queue = s.dpm.queue := by
  unfold switchedOff
  rw [driveStart_dpm]
  rfl

theorem switchedOff_etu : (switchedOff u f s).etu = s.etu := driveStart_etu u false _

theorem switchedOff_rpu : (switchedOff u f s).rpu = s.rpu := driveStart_rpu u false _

theorem switchedOff_movesOnly : MovesOnly [] [u] s (switchedOff u f s) :=
  (modUnit_movesOnly s u f).trans (driveStart_movesOnly (List.mem_singleton.2 rfl) false _)

theorem switchedOff_motion : Motion s (switchedOff u f s) := (modUnit_motion s u f).trans (drive_motion _ _ false)

theorem switchedOff_carries {w : Chan} (hw : (s.unitCfg u).startOut = some w) :
    ((switchedOff u f s).node w.node).outputs.getLsbD w.line.val = false :=
  driveStart_carries (s := s.modUnit u f) hw false
end

theorem startTimer_faults (u : UnitId) (s : State) (starting : (s.unit u).state = .starting)
    (due : (s.unit u).startTimer = some 0) :
    exec (.startTimerExpiry u) s = .next (finishReports s (faultUnit u .startFailed s)) :=
  congrArg Host.Outcome.next (if_pos ⟨starting, due⟩)

/-- With nobody to revoke or to wait, a start that fails leaves its event, the unit's record and its start output (R82, R85). -/
theorem startTimer_quiet {u : UnitId} {s : State} (free : (s.unit u).holders = []) (empty : s.dpm.queue = []) :
    finishReports s (faultUnit u .startFailed s) =
      (switchedOff u (UnitRun.fail .startFailed) s).raise .puFault (byteOf u.val) 1 := by
  have code : FaultReason.startFailed.code.setWidth 16 = (1 : Word16) := by decide
  have elem := (switchedOff_movesOnly u (UnitRun.fail .startFailed) s).others
  rw [faultUnit_quiet .startFailed free empty, code]
  change finishReports s ((switchedOff u (UnitRun.fail .startFailed) s).raise .puFault (byteOf u.val) 1) = _
  generalize switchedOff u (UnitRun.fail .startFailed) s = t at elem ⊢
  have same := fun e => ((raise_reported t .puFault (byteOf u.val) 1).elem e).trans (elem e List.not_mem_nil)
  exact finishReports_of_same (fun e => by rw [same]) fun e _ => by rw [same]

/-- What a unit that is switched off and raises PU_FAULT leaves (R80, R85). -/
theorem switchedOff_raise {u : UnitId} {s : State} (f : UnitRun → UnitRun) (empty : s.dpm.queue = []) :
    let t := (switchedOff u f s).raise .puFault (byteOf u.val) 1
    t.unit u = f (s.unit u) ∧ (∀ v, v ≠ u → t.unit v = s.unit v) ∧ t.dpm.queue = [] ∧ (∀ e, t.elem e = s.elem e) ∧
      OutputsKept [] [u] s t ∧ t.rpu.events = eventJoined s .puFault (byteOf u.val) 1 ∧
      ∀ w, (s.unitCfg u).startOut = some w → (t.node w.node).outputs.getLsbD w.line.val = false := by
  have unit := switchedOff_unit u f s
  have moved := switchedOff_movesOnly u f s
  have queue := switchedOff_queue u f s
  have rpu := switchedOff_rpu u f s
  have time := (switchedOff_motion u f s).time
  have carries := fun w => switchedOff_carries u f s (w := w)
  generalize switchedOff u f s = t at unit moved queue rpu time carries ⊢
  have raised := raise_reported t .puFault (byteOf u.val) 1
  refine ⟨by rw [raised.unit, unit, if_pos rfl], fun v hv => by rw [raised.unit, unit, if_neg hv],
    by rw [raised.dpm, queue, empty], fun e => (raised.elem e).trans (moved.others e List.not_mem_nil),
    moved.outputs.trans moved.cfg (.of_flc _ _ raised.flc), ?_, fun w hw => by rw [raised.node]; exact carries w hw⟩
  rw [raise_events, rpu, time]
  rfl

/-- Settles O36: the start timer by what a fault reaches, and the idle timer by the unit that it switches off. -/
theorem unitTimersExpire : Obligations.UnitTimersExpire := by
  refine ⟨fun u s starting due => ⟨_, startTimer_faults u s starting due, ?_⟩, fun u s ready due => ?_⟩
  · have moves := faultUnit_movesOnly u .startFailed s
    obtain ⟨fault, reason⟩ := faultUnit_fault u .startFailed s
    refine ⟨(faultUnit_motion u .startFailed s).toOnlyMotion.trans (finishReports_onlyMotion s _),
      moves.outputs.trans moves.cfg (.of_flc _ _ (finishReports_flc s _)), by rw [finishReports_unit]; exact fault,
      by rw [finishReports_unit]; exact reason, fun e _ apart free => ?_, fun free empty => ?_⟩
    · refine (finishReports_elem s _ e).trans (moves.others e fun he => ?_)
      rcases List.mem_append.1 he with he | he
      · obtain ⟨h, hh, hhe⟩ := List.mem_map.1 he
        exact free h hh hhe
      · obtain ⟨w, hw, hwe⟩ := List.mem_map.1 he
        exact notWaiting_of_waits apart w hw hwe
    · rw [startTimer_quiet free empty]
      exact switchedOff_raise (UnitRun.fail .startFailed) empty
  · have exec_eq : exec (.idleTimerExpiry u) s =
        .next (switchedOff u (fun r => { r with state := .off, idleTimer := none }) s) :=
      congrArg Host.Outcome.next (if_pos ⟨ready, due⟩)
    have unit := switchedOff_unit u (fun r => { r with state := .off, idleTimer := none }) s
    exact ⟨_, exec_eq, (switchedOff_motion u _ s).toOnlyMotion, (switchedOff_movesOnly u _ s).outputs,
      (unit u).trans (if_pos rfl), fun v hv => (unit v).trans (if_neg hv), switchedOff_queue u _ s, switchedOff_etu u _ s,
      switchedOff_rpu u _ s, driveStart_ports u false _, fun _ hw => switchedOff_carries u _ s hw⟩

end Sys2Proof.Machine.Slots
